-- ==== Sys2Proof/Word.lean ====
section
/-! DEFINITION. The word types of UTDEC: a byte of the frame, the whole frame on its 88-bit bus, and the two
small numbers the range table is about. What is computed from them stands in Decode.lean and under Machine/. -/

namespace Sys2Proof

/-- One frame byte: 8 bits (R10 BYTE_W, R50). -/
abbrev Byte := BitVec 8

/-- The port `in_frame[87:0]` (R21, R52): one whole frame of FRAME_LEN = 11 bytes. -/
abbrev Frame := BitVec 88

/-- A range selector that a type may map: 0..7 (R10 SEL range, R73). -/
abbrev Selector := Fin 8

/-- A print pattern p, the count of digits before the decimal point: 0..5 (R84). -/
abbrev PrintPattern := Fin 6

end Sys2Proof
end

