-- ==== Sys2Proof/Syntax.lean ====
section
/-! DEFINITION. The syntax of UTDEC: one constructor per row of spec/opcode_table.json. An "instruction" is the
handler that frame byte 6 selects (R18, R78); its operands are the other ten bytes of the frame. -/

namespace Sys2Proof

/-- The thirteen message types, in the order of R80. -/
inductive MsgType where
  | dcv | acv | mv | ohm | cap | tempc | ua | ma | amp | beep | diode | freq | tempf
  deriving DecidableEq, Repr, Inhabited

/-- The raw bytes F[0]..F[5] and F[7]..F[10] of a frame (R70). Byte 6 is not among them: it is the opcode. The
reserved bytes 7, 9 and 10 are kept as reserved fields, as R75 asks, though nothing reads them (R76). -/
structure Operands where
  /-- F[0], the most significant digit byte. -/
  f0 : Byte
  f1 : Byte
  f2 : Byte
  f3 : Byte
  /-- F[4], the least significant digit byte. -/
  f4 : Byte
  /-- F[5], the range selector byte. -/
  f5 : Byte
  /-- F[7], reserved. -/
  f7 : Byte
  /-- F[8], the sign byte. -/
  f8 : Byte
  /-- F[9], reserved. -/
  f9 : Byte
  /-- F[10], reserved. -/
  f10 : Byte
  deriving DecidableEq, Repr

/-- One frame, by the row of the opcode table that it selects (R80, R86). -/
inductive Instr where
  | dcv (o : Operands)
  | acv (o : Operands)
  | mv (o : Operands)
  | ohm (o : Operands)
  | cap (o : Operands)
  | tempc (o : Operands)
  | ua (o : Operands)
  | ma (o : Operands)
  | amp (o : Operands)
  | beep (o : Operands)
  | diode (o : Operands)
  | freq (o : Operands)
  | tempf (o : Operands)
  /-- The last row: byte 6 is `f6`, outside 0x31..0x3D (R103). -/
  | unknown (f6 : Byte) (o : Operands)
  deriving DecidableEq, Repr

/-- The message type of an instruction, none for UNKNOWN (R80). -/
def Instr.msgType : Instr → Option MsgType
  | .dcv _ => some .dcv
  | .acv _ => some .acv
  | .mv _ => some .mv
  | .ohm _ => some .ohm
  | .cap _ => some .cap
  | .tempc _ => some .tempc
  | .ua _ => some .ua
  | .ma _ => some .ma
  | .amp _ => some .amp
  | .beep _ => some .beep
  | .diode _ => some .diode
  | .freq _ => some .freq
  | .tempf _ => some .tempf
  | .unknown _ _ => none

/-- The ten operand bytes of an instruction. -/
def Instr.operands : Instr → Operands
  | .dcv o => o
  | .acv o => o
  | .mv o => o
  | .ohm o => o
  | .cap o => o
  | .tempc o => o
  | .ua o => o
  | .ma o => o
  | .amp o => o
  | .beep o => o
  | .diode o => o
  | .freq o => o
  | .tempf o => o
  | .unknown _ o => o

end Sys2Proof
end

