-- ==== Sys2Proof/WellFormed.lean ====
section
/-! DEFINITION. Which terms of Instr stand for a frame. Every operand byte takes all 256 values (R122: extraction
never rejects a lane), so the one check is that an UNKNOWN frame's byte 6 is outside 0x31..0x3D (R86, R103). -/

namespace Sys2Proof

/-- `F[6]` is a byte that selects none of the thirteen types: outside 0x31..0x3D (R103). -/
def unknownTypeByte (f6 : Byte) : Bool := decide (f6.toNat < 0x31) || decide (0x3D < f6.toNat)

/-- An instruction that some frame encodes. -/
def Instr.wf : Instr → Bool
  | .dcv _ => true
  | .acv _ => true
  | .mv _ => true
  | .ohm _ => true
  | .cap _ => true
  | .tempc _ => true
  | .ua _ => true
  | .ma _ => true
  | .amp _ => true
  | .beep _ => true
  | .diode _ => true
  | .freq _ => true
  | .tempf _ => true
  | .unknown f6 _ => unknownTypeByte f6

end Sys2Proof
end

