-- ==== Sys2Proof/Decode.lean ====
section
/-! DEFINITION. From the bits of a frame to an instruction and back: the bus packing (R52), lane extraction (R120),
the message-type classifier (R80, R100), the decoder and, after it, the encoder. -/

namespace Sys2Proof

/-- BASE = 0x30, ASCII '0' (R10). -/
def base : Byte := 0x30

/-- Lane extraction (R120): `b - BASE mod 256`, an 8-bit wrap-around subtraction that never fails (R122). -/
def lane (b : Byte) : Byte := b - base

/-- F[i] is `in_frame[8i+7:8i]` (R14, R52). The index ranges over the whole address space 0..10 (R50). -/
def frameByte (f : Frame) (i : Fin 11) : Byte := f.extractLsb' (8 * i.val) 8

/-- Little-index-low packing (R52): element k at bits [8k+7:8k] of a w-bit bus, 0x00 above the last element. -/
def packBytes (w : Nat) : List Byte → BitVec w
  | [] => 0#w
  | b :: bs => (packBytes w bs <<< 8) ||| b.setWidth w

/-- The message-type classifier: the type whose code is the lane `typ`, none for any other lane (R80, R100). -/
def classify (f6 : Byte) : Option MsgType :=
  match (lane f6).toNat with
  | 1 => some .dcv
  | 2 => some .acv
  | 3 => some .mv
  | 4 => some .ohm
  | 5 => some .cap
  | 6 => some .tempc
  | 7 => some .ua
  | 8 => some .ma
  | 9 => some .amp
  | 10 => some .beep
  | 11 => some .diode
  | 12 => some .freq
  | 13 => some .tempf
  | _ => none

/-- The instruction of a message type (or of none, with the raw byte 6) and its operand bytes. -/
def instrOf (f6 : Byte) (o : Operands) : Option MsgType → Instr
  | some .dcv => .dcv o
  | some .acv => .acv o
  | some .mv => .mv o
  | some .ohm => .ohm o
  | some .cap => .cap o
  | some .tempc => .tempc o
  | some .ua => .ua o
  | some .ma => .ma o
  | some .amp => .amp o
  | some .beep => .beep o
  | some .diode => .diode o
  | some .freq => .freq o
  | some .tempf => .tempf o
  | none => .unknown f6 o

/-- Why bytes are no frame. -/
inductive DecodeError where
  /-- The byte list has `n` bytes, not the 11 of a frame: there is no short, long or multi-frame form (R54, R79). -/
  | frameLength (n : Nat)
  deriving DecidableEq, Repr

/-- The decoder over bytes, byte 0 first (R70, R80). Total: a list that is not one frame is rejected by name. -/
def decode : List Byte → Except DecodeError Instr
  | [f0, f1, f2, f3, f4, f5, f6, f7, f8, f9, f10] =>
    .ok (instrOf f6 ⟨f0, f1, f2, f3, f4, f5, f7, f8, f9, f10⟩ (classify f6))
  | bs => .error (.frameLength bs.length)

/-- The operand bytes of a frame on the bus (R52, R70). -/
def frameOperands (f : Frame) : Operands :=
  { f0 := frameByte f 0, f1 := frameByte f 1, f2 := frameByte f 2, f3 := frameByte f 3, f4 := frameByte f 4,
    f5 := frameByte f 5, f7 := frameByte f 7, f8 := frameByte f 8, f9 := frameByte f 9, f10 := frameByte f 10 }

/-- The eleven bytes of a frame on the bus, byte 0 first (R52). -/
def frameBytes (f : Frame) : List Byte :=
  [frameByte f 0, frameByte f 1, frameByte f 2, frameByte f 3, frameByte f 4, frameByte f 5, frameByte f 6,
   frameByte f 7, frameByte f 8, frameByte f 9, frameByte f 10]

/-- The decoder over the bus. A frame on the bus always has 11 bytes (R54), so this one cannot fail. -/
def decodeFrame (f : Frame) : Instr := instrOf (frameByte f 6) (frameOperands f) (classify (frameByte f 6))

/-! ## The opcode table as the spec numbers it -/

/-- One row of spec/opcode_table.json over `in_frame` (R86). -/
structure OpcodeRow where
  msgType : Option MsgType
  mask : Frame
  pattern : Frame
  deriving DecidableEq, Repr

/-- The fourteen rows of spec/opcode_table.json in their order, UNKNOWN last (R86). -/
def opcodeTable : List OpcodeRow :=
  [ ⟨some .dcv, 0x00000000FF000000000000, 0x0000000031000000000000⟩,
    ⟨some .acv, 0x00000000FF000000000000, 0x0000000032000000000000⟩,
    ⟨some .mv, 0x00000000FF000000000000, 0x0000000033000000000000⟩,
    ⟨some .ohm, 0x00000000FF000000000000, 0x0000000034000000000000⟩,
    ⟨some .cap, 0x00000000FF000000000000, 0x0000000035000000000000⟩,
    ⟨some .tempc, 0x00000000FF000000000000, 0x0000000036000000000000⟩,
    ⟨some .ua, 0x00000000FF000000000000, 0x0000000037000000000000⟩,
    ⟨some .ma, 0x00000000FF000000000000, 0x0000000038000000000000⟩,
    ⟨some .amp, 0x00000000FF000000000000, 0x0000000039000000000000⟩,
    ⟨some .beep, 0x00000000FF000000000000, 0x000000003A000000000000⟩,
    ⟨some .diode, 0x00000000FF000000000000, 0x000000003B000000000000⟩,
    ⟨some .freq, 0x00000000FF000000000000, 0x000000003C000000000000⟩,
    ⟨some .tempf, 0x00000000FF000000000000, 0x000000003D000000000000⟩,
    ⟨none, 0, 0⟩ ]

/-- A row matches a frame when the frame's bits under the row's mask are the row's pattern (R86). -/
def OpcodeRow.matchesFrame (r : OpcodeRow) (f : Frame) : Bool := f &&& r.mask == r.pattern

/-- The first row of the table that matches (R86). -/
def firstRow (f : Frame) : Option OpcodeRow := opcodeTable.find? (fun r => r.matchesFrame f)

/-! ## The encoder -/

/-- Byte 6 of a frame of each type: BASE plus the type code, the F[6] column of R80. -/
def typeByte : MsgType → Byte
  | .dcv => 0x31
  | .acv => 0x32
  | .mv => 0x33
  | .ohm => 0x34
  | .cap => 0x35
  | .tempc => 0x36
  | .ua => 0x37
  | .ma => 0x38
  | .amp => 0x39
  | .beep => 0x3A
  | .diode => 0x3B
  | .freq => 0x3C
  | .tempf => 0x3D

/-- Byte 6 of an instruction's frame. -/
def opcodeByte : Instr → Byte
  | .dcv _ => typeByte .dcv
  | .acv _ => typeByte .acv
  | .mv _ => typeByte .mv
  | .ohm _ => typeByte .ohm
  | .cap _ => typeByte .cap
  | .tempc _ => typeByte .tempc
  | .ua _ => typeByte .ua
  | .ma _ => typeByte .ma
  | .amp _ => typeByte .amp
  | .beep _ => typeByte .beep
  | .diode _ => typeByte .diode
  | .freq _ => typeByte .freq
  | .tempf _ => typeByte .tempf
  | .unknown f6 _ => f6

/-- The eleven bytes that encode an instruction, byte 0 first (R70). -/
def encode (i : Instr) : List Byte :=
  let o := i.operands
  [o.f0, o.f1, o.f2, o.f3, o.f4, o.f5, opcodeByte i, o.f7, o.f8, o.f9, o.f10]

/-- The same frame on the bus (R52). -/
def encodeFrame (i : Instr) : Frame := packBytes 88 (encode i)

/-! ## The host's numbering -/

/-- The frame whose bits are `w`, of which the table gives `nbits`: the table's numbering is that of `in_frame`
(R86), and every bit above `nbits` is 0. -/
def tableFrame (nbits w : Nat) : Frame := BitVec.ofNat 88 (w % 2 ^ nbits)

/-- What the decoder reads from a table word: its eleven bytes in bus order, given to `decode`. -/
def decodeTableWord (nbits w : Nat) : Option Instr :=
  match decode (frameBytes (tableFrame nbits w)) with
  | .ok i => some i
  | .error _ => none

end Sys2Proof
end

