-- ==== Sys2Proof/Machine/Operands.lean ====
section
/-! DEFINITION. The operand lanes of a frame (R121) and the tests on them (R123, R124). -/

namespace Sys2Proof.Machine

/-- d0, the most significant digit lane (R121). -/
def d0 (o : Operands) : Byte := lane o.f0
/-- d1 (R121). -/
def d1 (o : Operands) : Byte := lane o.f1
/-- d2 (R121). -/
def d2 (o : Operands) : Byte := lane o.f2
/-- d3 (R121). -/
def d3 (o : Operands) : Byte := lane o.f3
/-- d4, the least significant digit lane (R121). -/
def d4 (o : Operands) : Byte := lane o.f4
/-- sel, the range selector lane (R121). -/
def sel (o : Operands) : Byte := lane o.f5
/-- sgn, the sign lane (R121). -/
def sgn (o : Operands) : Byte := lane o.f8

/-- `{d4, d3, d2, d1, d0}`, d0 in bits 7:0 (R121, R160). -/
def digitLanes (o : Operands) : BitVec 40 := d4 o ++ d3 o ++ d2 o ++ d1 o ++ d0 o

/-- SENTINEL = 10 (R10). -/
def sentinelLane : Byte := 10

/-- The sentinel detector SENT: only lane d0 is tested (R124). -/
def sent (o : Operands) : Bool := d0 o == sentinelLane

/-- `d > 9`, that is, d not in 0..9 (R123, R135). -/
def aboveNine (d : Byte) : Bool := decide (9 < d.toNat)

/-- The selector lane as a selector that a type may map: none when it is not in 0..7 (R130, R132). -/
def selector (o : Operands) : Option Selector :=
  if h : (sel o).toNat < 8 then some ⟨(sel o).toNat, h⟩ else none

end Sys2Proof.Machine
end

