-- ==== Sys2Proof/Machine/Out.lean ====
section
/-! DEFINITION. The data types of a result: kinds, unit codes, the measurement record M, and the output register
stage OUT. Their bit codes and strings stand in Machine/Flags.lean and Machine/Text.lean. -/

namespace Sys2Proof.Machine

/-- Measurement kinds (R82). -/
inductive Kind where
  | numeric | error | outOfRange | open_ | highRes | noDefault
  deriving DecidableEq, Repr, Inhabited

/-- Unit codes, in the order of R83. -/
inductive UnitCode where
  | uNone | uV | uMV | uOhm | uKohm | uMohm | uNF | uUF | uMF | uC | uF | uUA | uMA | uA | uHz | uKHz | uMHz
  deriving DecidableEq, Repr, Inhabited

/-- The measurement record M that a handler returns (R81). -/
structure Measurement where
  kind : Kind
  /-- The sign decoder marked the value negative. -/
  neg : Bool
  /-- Print pattern; 0 when kind is not NUMERIC. -/
  dp : PrintPattern
  unit : UnitCode
  /-- The digit lanes `{d4, d3, d2, d1, d0}`, whatever the kind. -/
  digits : BitVec 40
  /-- A NUMERIC value used a lane above 9. -/
  digitErr : Bool
  deriving DecidableEq, Repr

/-- What the core DECODE returns (R15, R20). -/
inductive Result where
  /-- A measurement. -/
  | meas (m : Measurement)
  /-- The unknown-type diagnostic, with the raw byte 6. -/
  | diag (typeRaw : Byte)
  deriving DecidableEq, Repr

/-- The output register stage OUT: fourteen registers, 235 bits (R22, R23). -/
structure Out where
  /-- `out_valid`: 1 for one cycle after a measurement. -/
  valid : Bool
  /-- `diag_valid`: 1 for one cycle after an unknown-type frame. -/
  diag : Bool
  /-- `out_type`: type code of the last accepted frame, 0 if unknown. -/
  typ : BitVec 4
  /-- `out_type_raw`: byte 6 of the last accepted frame. -/
  typeRaw : Byte
  /-- `out_kind`. -/
  kind : BitVec 3
  /-- `out_neg`: the sign flag. -/
  neg : Bool
  /-- `out_dp`: the print pattern. -/
  dp : BitVec 3
  /-- `out_unit`. -/
  unit : BitVec 5
  /-- `out_digits`: lane i at [8i+7:8i]. -/
  digits : BitVec 40
  /-- `out_digit_err`. -/
  digitErr : Bool
  /-- `out_vtext`: character k at [8k+7:8k]. -/
  vtext : BitVec 128
  /-- `out_vlen`. -/
  vlen : BitVec 5
  /-- `out_utext`: character k at [8k+7:8k]. -/
  utext : BitVec 32
  /-- `out_ulen`. -/
  ulen : BitVec 3
  deriving DecidableEq, Repr, Inhabited

end Sys2Proof.Machine
end

