-- ==== Sys2Proof/Machine/Flags.lean ====
section
/-! DEFINITION. The two flags, the sign decoder behind OUT.neg and the digit check behind OUT.digit_err (R26), and
the bit codes of the coded registers (R80, R82, R83, R84). -/

namespace Sys2Proof.Machine

/-- NEGVAL(t): the sign lane that means negative, none for a type without a sign (R125, R127). -/
def negVal : MsgType → Option Byte
  | .dcv => some 5
  | .mv => some 4
  | .ua => some 4
  | .ma => some 4
  | .amp => some 4
  | .acv => none
  | .ohm => none
  | .cap => none
  | .tempc => none
  | .beep => none
  | .diode => none
  | .freq => none
  | .tempf => none

/-- negflag(t, F): the sign lane equals the type's negative value (R125). -/
def negFlag (t : MsgType) (o : Operands) : Bool := negVal t == some (sgn o)

/-- Some digit lane is not in 0..9 (R135). It counts for a NUMERIC result only (R160). -/
def digitAboveNine (o : Operands) : Bool :=
  aboveNine (d0 o) || aboveNine (d1 o) || aboveNine (d2 o) || aboveNine (d3 o) || aboveNine (d4 o)

/-- typecode(b), the value of `out_type` for byte 6 = b (R80, R102). -/
def typecode (b : Byte) : BitVec 4 :=
  if 1 ≤ (lane b).toNat ∧ (lane b).toNat ≤ 13 then (lane b).setWidth 4 else 0

/-- Kind codes on `out_kind` (R82). -/
def kindBits : Kind → BitVec 3
  | .numeric => 0
  | .error => 1
  | .outOfRange => 2
  | .open_ => 3
  | .highRes => 4
  | .noDefault => 5

/-- Unit codes on `out_unit` (R83). -/
def unitBits : UnitCode → BitVec 5
  | .uNone => 0
  | .uV => 1
  | .uMV => 2
  | .uOhm => 3
  | .uKohm => 4
  | .uMohm => 5
  | .uNF => 6
  | .uUF => 7
  | .uMF => 8
  | .uC => 9
  | .uF => 10
  | .uUA => 11
  | .uMA => 12
  | .uA => 13
  | .uHz => 14
  | .uKHz => 15
  | .uMHz => 16

/-- The print pattern on `out_dp` (R84). -/
def dpBits (p : PrintPattern) : BitVec 3 := BitVec.ofNat 3 p.val

end Sys2Proof.Machine
end

