-- ==== Sys2Proof/Config.lean ====
section
/-! DEFINITION. What one built UTDEC fixes and the spec leaves open, and the free values. All are opaque: nothing can
evaluate them, so a statement proved of the model holds whatever they are. -/

namespace Sys2Proof.Config

open Sys2Proof.Machine

/-- The open parameter RangeTable (R11), as one free choice for every type and selector: none is UNMAPPED. The model
never reads it raw: Machine/RangeTable.lean admits exactly the tables that meet the constraints of R131 (log 5). -/
opaque rangeTable : MsgType → Selector → Option (PrintPattern × UnitCode)

/-- The open parameter BeepPattern (R11, R179): any pattern 0..5 (log 6). -/
opaque beepPattern : PrintPattern

/-- The free values of the OUT registers where the spec gives them none, one for each draw by its number: before the
first reset (R261; 93_implementation_defined.md I6; log 4), and after an edge that sampled a frame still changing (R266;
93_implementation_defined.md I12; log 3). -/
opaque freeOut : Nat → Out

end Sys2Proof.Config
end

