-- ==== Sys2Proof/Machine/RangeTable.lean ====
section
/-! DEFINITION. The decimal-point/range selector multiplexer (R130 to R132) and the out-of-range units (R12). The
table is open: the model uses the free choice `Config.rangeTable`, admitted through the constraints of R131, so that
it can be every table that meets them and no other. -/

namespace Sys2Proof.Machine

/-- A range table: none is UNMAPPED, otherwise the pattern and the unit (R11). -/
abbrev Table := MsgType → Selector → Option (PrintPattern × UnitCode)

/-- Every unit code of R83. -/
def allUnits : List UnitCode :=
  [.uNone, .uV, .uMV, .uOhm, .uKohm, .uMohm, .uNF, .uUF, .uMF, .uC, .uF, .uUA, .uMA, .uA, .uHz, .uKHz, .uMHz]

/-- The unit family of every mapped entry of a type (R131). DIODE's is open; BEEP's row is not consulted. -/
def unitFamily : MsgType → List UnitCode
  | .dcv => [.uV, .uMV]
  | .acv => [.uV, .uMV]
  | .mv => [.uV, .uMV]
  | .ohm => [.uOhm, .uKohm, .uMohm]
  | .cap => [.uNF, .uUF, .uMF]
  | .tempc => [.uC]
  | .ua => [.uUA, .uMA, .uA]
  | .ma => [.uUA, .uMA, .uA]
  | .amp => [.uUA, .uMA, .uA]
  | .beep => allUnits
  | .diode => allUnits
  | .freq => [.uHz, .uKHz, .uMHz]
  | .tempf => [.uF]

/-- The mapped selectors of a type where R131 gives exactly which, none where they are OPEN. -/
def exactSelectors : MsgType → Option (List Selector)
  | .dcv => some [1, 2, 3, 4]
  | .ohm => some [1, 2, 3, 4, 5, 6]
  | .freq => some [0, 1, 2, 3, 4, 5, 6, 7]
  | .acv => none
  | .mv => none
  | .cap => none
  | .tempc => none
  | .ua => none
  | .ma => none
  | .amp => none
  | .beep => none
  | .diode => none
  | .tempf => none

/-- The two entries the source fixes (R131). -/
def fixedEntry (t : MsgType) (s : Selector) : Option (PrintPattern × UnitCode) :=
  if t = .dcv ∧ s = 2 then some (2, .uV)
  else if t = .ohm ∧ s = 1 then some (3, .uOhm)
  else none

/-- Every selector. -/
def allSelectors : List Selector := [0, 1, 2, 3, 4, 5, 6, 7]

/-- CAP must leave some selector of 0..7 UNMAPPED (R131): a choice that maps all eight loses its entry 0. -/
def capGap (c : Table) (t : MsgType) (s : Selector) : Bool :=
  t == .cap && s == 0 && allSelectors.all (fun k => (c .cap k).isSome)

/-- Whether the admitted table maps (t, s). -/
def isMapped (c : Table) (t : MsgType) (s : Selector) : Bool :=
  match exactSelectors t with
  | some ss => ss.contains s
  | none => (c t s).isSome && !capGap c t s

/-- The chosen unit where it is in the type's family, otherwise the family's first. -/
def fitUnit (t : MsgType) (u : UnitCode) : UnitCode :=
  if (unitFamily t).contains u then u else (unitFamily t).headD .uNone

/-- The chosen entry, its unit brought into the family; where a selector that R131 maps has no chosen entry, the
first one that R131 allows. -/
def fitEntry (t : MsgType) : Option (PrintPattern × UnitCode) → PrintPattern × UnitCode
  | some (p, u) => (p, fitUnit t u)
  | none => (0, fitUnit t .uNone)

/-- The table nearest to a choice that meets R131. A choice that meets R131 is unchanged. -/
def admitted (c : Table) : Table := fun t s =>
  match fixedEntry t s with
  | some e => some e
  | none => if isMapped c t s then some (fitEntry t (c t s)) else none

/-- RangeTable (R11, R29, R131): constant, open, and as R131 constrains it. -/
def rangeTable : Table := admitted Config.rangeTable

/-- RANGE(t, sel): UNMAPPED when sel is not in 0..7, otherwise the table's entry (R130). -/
def range (t : MsgType) (o : Operands) : Option (PrintPattern × UnitCode) :=
  match selector o with
  | some s => rangeTable t s
  | none => none

/-- The types with the out-of-range sentinel (R12). -/
inductive OorType where
  | ohm | cap | tempc | tempf
  deriving DecidableEq, Repr

/-- OorUnit(t), at the values R12 decides. -/
def oorUnit : OorType → UnitCode
  | .ohm => .uOhm
  | .cap => .uNone
  | .tempc => .uC
  | .tempf => .uF

end Sys2Proof.Machine
end

