-- ==== Sys2Proof/Machine/State.lean ====
section
/-! DEFINITION. The state of UTDEC: the register stage OUT, and the values the outside world puts on the input ports
at the coming clock edges. -/

namespace Sys2Proof.Machine

/-- The input ports as one rising edge of `clk` samples them (R21). A step of the machine IS that edge, so `clk`
itself has no field. -/
structure EdgeInput where
  /-- `rst`: synchronous reset, active high. -/
  rst : Bool
  /-- `in_valid`: `in_frame` holds one complete frame. -/
  inValid : Bool
  /-- `in_frame`, byte i at [8i+7:8i]. -/
  inFrame : Frame
  /-- Whether `in_frame` kept the setup and hold of this edge (R266): not a port, but a fact about the signal. -/
  frameStable : Bool
  deriving DecidableEq, Repr

/-- The machine's state: OUT is all that UTDEC holds from one edge to the next (R23). The other three fields are the
model's own: the ports of the coming edges, the counter of free draws, and whether a reset has come. -/
structure State where
  /-- The register stage OUT (R22, R23). -/
  out : Out
  /-- The ports at the coming edges, the next edge first: the spec's "program" (R18). Past its end nothing is
  presented (log 1, log 2). -/
  inputs : List EdgeInput
  /-- How many free values OUT has taken so far: the argument of the next free draw (log 3, log 4). -/
  draws : Nat
  /-- Whether an edge with `rst` = 1 has come. Until one has, no field of OUT has a value of the spec's (R261; log 4). -/
  resetSeen : Bool
  deriving DecidableEq, Repr

/-- Reasons to stop with a fault. There are none: UTDEC has no trap (R235), every error is an in-band result (R15,
R230), and DECODE is total (R122, R101). The type is closed and empty, so that no step can fault (log 10). -/
inductive Fault where
  deriving DecidableEq, Repr

/-- Reasons to give no meaning. -/
inductive Refusal where
  /-- Raised by exec's arm of an instruction that has no meaning yet. Safe: the machine stops. No arm raises it. -/
  | notModelled (mnemonic : String)
  deriving DecidableEq, Repr

/-- The reset value of every field of OUT (R33). -/
def Out.reset : Out :=
  { valid := false, diag := false, typ := 0, typeRaw := 0, kind := 0, neg := false, dp := 0, unit := 0,
    digits := 0, digitErr := false, vtext := 0, vlen := 0, utext := 0, ulen := 0 }

/-- The machine right after an edge with `rst` = 1 (R260, R33), with no ports listed and no draw made (log 1, log 3). -/
def State.reset : State := { out := Out.reset, inputs := [], draws := 0, resetSeen := true }

/-- The machine before its first reset: OUT is the first free draw, never the reset value (R261; log 4). -/
def State.powerOn (inputs : List EdgeInput) : State :=
  { out := Config.freeOut 0, inputs := inputs, draws := 1, resetSeen := false }

end Sys2Proof.Machine
end

