-- ==== Sys2Proof/Machine/Text.lean ====
section
/-! DEFINITION. Value and unit string assembly (R140 to R146). A string is a list of 8-bit ASCII codes (R16). -/

namespace Sys2Proof.Machine

/-- "-" (R140). -/
def charMinus : Byte := 0x2D
/-- "." (R140). -/
def charPoint : Byte := 0x2E

/-- The characters of the five digits, the frame bytes F[0..4] themselves (R141). -/
def digitChars (o : Operands) : List Byte := [o.f0, o.f1, o.f2, o.f3, o.f4]

/-- "error" (R142). -/
def textError : List Byte := [0x65, 0x72, 0x72, 0x6F, 0x72]
/-- "out of range" (R142). -/
def textOutOfRange : List Byte := [0x6F, 0x75, 0x74, 0x20, 0x6F, 0x66, 0x20, 0x72, 0x61, 0x6E, 0x67, 0x65]
/-- "open" (R142). -/
def textOpen : List Byte := [0x6F, 0x70, 0x65, 0x6E]
/-- "high resistance" (R142). -/
def textHighRes : List Byte :=
  [0x68, 0x69, 0x67, 0x68, 0x20, 0x72, 0x65, 0x73, 0x69, 0x73, 0x74, 0x61, 0x6E, 0x63, 0x65]

/-- A NUMERIC string: the sign, the first `dp` characters, the point, the rest (R140). -/
def numericText (neg : Bool) (dp : PrintPattern) (chars : List Byte) : List Byte :=
  (if neg then [charMinus] else []) ++ chars.take dp.val ++ [charPoint] ++ chars.drop dp.val

/-- The string of ValueText(M, F) (R140, R142, R143). -/
def valueText (m : Measurement) (o : Operands) : List Byte :=
  match m.kind with
  | .numeric => numericText m.neg m.dp (digitChars o)
  | .error => textError
  | .outOfRange => textOutOfRange
  | .open_ => textOpen
  | .highRes => textHighRes
  | .noDefault => []

/-- str(u), the bytes column of R83. -/
def unitText : UnitCode → List Byte
  | .uNone => []
  | .uV => [0x56]
  | .uMV => [0x6D, 0x56]
  | .uOhm => [0x6F, 0x68, 0x6D]
  | .uKohm => [0x6B, 0x6F, 0x68, 0x6D]
  | .uMohm => [0x6D, 0x6F, 0x68, 0x6D]
  | .uNF => [0x6E, 0x46]
  | .uUF => [0x75, 0x46]
  | .uMF => [0x6D, 0x46]
  | .uC => [0x43]
  | .uF => [0x46]
  | .uUA => [0x75, 0x41]
  | .uMA => [0x6D, 0x41]
  | .uA => [0x41]
  | .uHz => [0x48, 0x7A]
  | .uKHz => [0x6B, 0x48, 0x7A]
  | .uMHz => [0x4D, 0x48, 0x7A]

/-- pack16(s): character k at [8k+7:8k] of `out_vtext`, 0x00 in every other byte (R144). -/
def pack16 (s : List Byte) : BitVec 128 := packBytes 128 s

/-- pack4(s): character k at [8k+7:8k] of `out_utext`, 0x00 in every other byte (R145). -/
def pack4 (s : List Byte) : BitVec 32 := packBytes 32 s

end Sys2Proof.Machine
end

