-- ==== Sys2Proof/Machine/Ops.lean ====
section
/-! DEFINITION. The shared operations: the measurement constructors the handlers are built from (R160), the update of
OUT by an accepted frame (R30 cases 2 and 3), and the edges that accept none (R30 cases 1 and 4, R266). There is no
exception entry and no return from one: UTDEC has no traps (R235, R236), and an error is a kind of M (R230). -/

namespace Sys2Proof.Machine

/-! ## Measurement constructors -/

/-- NUM(t, p, u) (R160). -/
def num (t : MsgType) (p : PrintPattern) (u : UnitCode) (o : Operands) : Measurement :=
  { kind := .numeric, neg := negFlag t o, dp := p, unit := u, digits := digitLanes o, digitErr := digitAboveNine o }

/-- ONLY(k, u) (R160). -/
def only (k : Kind) (u : UnitCode) (o : Operands) : Measurement :=
  { kind := k, neg := false, dp := 0, unit := u, digits := digitLanes o, digitErr := false }

/-- NUM where RANGE maps the selector, otherwise `unmapped` (R160, R183). -/
def rangedOr (unmapped : Measurement) (t : MsgType) (o : Operands) : Measurement :=
  match range t o with
  | some (p, u) => num t p u o
  | none => unmapped

/-- RANGED(t) (R160). -/
def ranged (t : MsgType) (o : Operands) : Measurement := rangedOr (only .error .uNone o) t o

/-! ## Writes to the state -/

/-- OUT as it stands after an edge, at a value that the spec gives it. -/
def State.setOut (s : State) (r : Out) : State := { s with out := r }

/-- OUT takes the next free value, in every field. -/
def State.drawOut (s : State) : State := { s with out := Config.freeOut s.draws, draws := s.draws + 1 }

/-- The update of OUT to `r` by an edge of R30 cases 2 to 4. The first edge with `rst` = 1 gives OUT its first values:
until then every field of it stays unspecified whatever the edges do, so the update leaves a free value (R261;
92_eei_decisions.md D20; 93_implementation_defined.md I6). DESIGN CHOICE: a new free value after every such edge (log 4). -/
def State.updateOut (s : State) (r : Out) : State :=
  match s.resetSeen with
  | true => s.setOut r
  | false => s.drawOut

/-- The edge has passed: its ports leave the list. -/
def State.dropPorts (s : State) : State := { s with inputs := s.inputs.tail }

/-! ## An accepted frame -/

/-- OUT.type and OUT.type_raw, loaded by every accepted frame (R30, R102). -/
def Out.loadType (r : Out) (f6 : Byte) : Out := { r with typ := typecode f6, typeRaw := f6 }

/-- OUT after a measurement M of a frame with digit bytes F[0..4] (R30 case 2). -/
def Out.loadMeas (r : Out) (m : Measurement) (o : Operands) : Out :=
  { r with
    valid := true, diag := false
    kind := kindBits m.kind, neg := m.neg, dp := dpBits m.dp, unit := unitBits m.unit
    digits := m.digits, digitErr := m.digitErr
    vtext := pack16 (valueText m o), vlen := BitVec.ofNat 5 (valueText m o).length
    utext := pack4 (unitText m.unit), ulen := BitVec.ofNat 3 (unitText m.unit).length }

/-- OUT after an unknown type: the strobes change, the measurement fields hold (R30 case 3, R31). -/
def Out.loadDiag (r : Out) : Out := { r with valid := false, diag := true }

/-- An edge at which a frame with byte 6 `f6` and operands `o` is accepted and DECODE answers a result (R30 cases 2
and 3). -/
def accept (f6 : Byte) (o : Operands) (res : Result) (s : State) : State :=
  match res with
  | .meas m => s.updateOut ((s.out.loadType f6).loadMeas m o)
  | .diag _ => s.updateOut (s.out.loadType f6).loadDiag

/-! ## Edges that decode no frame -/

/-- Reset: every field of OUT takes its reset value, the other ports are ignored (R30 case 1, R260), and from now on OUT
has values (R261). -/
def resetEdge (s : State) : State := { s.setOut Out.reset with resetSeen := true }

/-- No frame: the strobes fall, every other field holds (R30 case 4). -/
def idleEdge (s : State) : State := s.updateOut { s.out with valid := false, diag := false }

/-- A frame that changes at its edge: any value in every OUT field, a free value (R266;
93_implementation_defined.md I12; log 3). -/
def unstableEdge (s : State) : State := s.drawOut

/-! ## Sampling the ports -/

/-- The ports where nothing is presented: no reset and no frame (log 2). -/
def quietPorts : EdgeInput := { rst := false, inValid := false, inFrame := 0, frameStable := true }

/-- The ports the next edge samples. -/
def State.ports (s : State) : EdgeInput := s.inputs.headD quietPorts

/-- The cases of an edge, in the order R30 tries them. -/
inductive EdgeCase where
  | reset
  | frame (f : Frame)
  | unstable
  | idle
  deriving DecidableEq, Repr

/-- Which case of R30 an edge takes; a frame it accepts must be stable to be decoded (R266). -/
def edgeCase (e : EdgeInput) : EdgeCase :=
  if e.rst then .reset
  else if e.inValid then (if e.frameStable then .frame e.inFrame else .unstable)
  else .idle

/-- A stable frame of the given bits, presented at an edge without reset. -/
def presentFrame (f : Frame) : EdgeInput := { rst := false, inValid := true, inFrame := f, frameStable := true }

end Sys2Proof.Machine
end

