-- ==== Sys2Proof/Machine/Capacitance.lean ====
section
/-! DEFINITION. The capacitance type: CAP (R169, R170). -/

namespace Sys2Proof.Machine

/-- H_CAP(F): the sentinel before the selector (R169). -/
def handleCap (o : Operands) : Measurement :=
  if sent o then only .outOfRange (oorUnit .cap) o else ranged .cap o

/-- An accepted CAP frame (R169, R30 case 2). -/
def execCap (o : Operands) (s : State) : Host.Outcome State Fault Refusal :=
  .next (accept (typeByte .cap) o (.meas (handleCap o)) s)

end Sys2Proof.Machine
end

