-- ==== Sys2Proof/Machine/Current.lean ====
section
/-! DEFINITION. The current types: UA, MA and AMP (R173 to R178). -/

namespace Sys2Proof.Machine

/-- H_UA(F) (R173). -/
def handleUa (o : Operands) : Measurement := ranged .ua o

/-- An accepted UA frame (R173, R30 case 2). -/
def execUa (o : Operands) (s : State) : Host.Outcome State Fault Refusal :=
  .next (accept (typeByte .ua) o (.meas (handleUa o)) s)

/-- H_MA(F) (R175). -/
def handleMa (o : Operands) : Measurement := ranged .ma o

/-- An accepted MA frame (R175, R30 case 2). -/
def execMa (o : Operands) (s : State) : Host.Outcome State Fault Refusal :=
  .next (accept (typeByte .ma) o (.meas (handleMa o)) s)

/-- H_AMP(F) (R177). -/
def handleAmp (o : Operands) : Measurement := ranged .amp o

/-- An accepted AMP frame (R177, R30 case 2). -/
def execAmp (o : Operands) (s : State) : Host.Outcome State Fault Refusal :=
  .next (accept (typeByte .amp) o (.meas (handleAmp o)) s)

end Sys2Proof.Machine
end

