-- ==== Sys2Proof/Machine/Frequency.lean ====
section
/-! DEFINITION. The frequency type: FREQ (R183, R184). -/

namespace Sys2Proof.Machine

/-- H_FREQ(F): no sentinel test, and NODEFAULT where the other types have ERROR (R183). -/
def handleFreq (o : Operands) : Measurement := rangedOr (only .noDefault .uNone o) .freq o

/-- An accepted FREQ frame (R183, R30 case 2). -/
def execFreq (o : Operands) (s : State) : Host.Outcome State Fault Refusal :=
  .next (accept (typeByte .freq) o (.meas (handleFreq o)) s)

end Sys2Proof.Machine
end

