-- ==== Sys2Proof/Machine/Resistance.lean ====
section
/-! DEFINITION. The resistance types: OHM, BEEP and DIODE (R167, R168, R179 to R182). -/

namespace Sys2Proof.Machine

/-- H_OHM(F): the sentinel before the selector (R167). -/
def handleOhm (o : Operands) : Measurement :=
  if sent o then only .outOfRange (oorUnit .ohm) o else ranged .ohm o

/-- An accepted OHM frame (R167, R30 case 2). -/
def execOhm (o : Operands) (s : State) : Host.Outcome State Fault Refusal :=
  .next (accept (typeByte .ohm) o (.meas (handleOhm o)) s)

/-- H_BEEP(F): open, then a value, then high resistance; RangeTable is not consulted (R179). -/
def handleBeep (o : Operands) : Measurement :=
  if sent o then only .open_ .uNone o
  else if sel o = 0 then num .beep Config.beepPattern .uOhm o
  else only .highRes .uNone o

/-- An accepted BEEP frame (R179, R30 case 2). -/
def execBeep (o : Operands) (s : State) : Host.Outcome State Fault Refusal :=
  .next (accept (typeByte .beep) o (.meas (handleBeep o)) s)

/-- H_DIODE(F) (R181). -/
def handleDiode (o : Operands) : Measurement :=
  if sent o then only .open_ .uNone o else ranged .diode o

/-- An accepted DIODE frame (R181, R30 case 2). -/
def execDiode (o : Operands) (s : State) : Host.Outcome State Fault Refusal :=
  .next (accept (typeByte .diode) o (.meas (handleDiode o)) s)

end Sys2Proof.Machine
end

