-- ==== Sys2Proof/Machine/Temperature.lean ====
section
/-! DEFINITION. The temperature types: TEMPC and TEMPF (R171, R172, R185, R186). -/

namespace Sys2Proof.Machine

/-- H_TEMPC(F): the sentinel before the selector (R171). -/
def handleTempc (o : Operands) : Measurement :=
  if sent o then only .outOfRange (oorUnit .tempc) o else ranged .tempc o

/-- An accepted TEMPC frame (R171, R30 case 2). -/
def execTempc (o : Operands) (s : State) : Host.Outcome State Fault Refusal :=
  .next (accept (typeByte .tempc) o (.meas (handleTempc o)) s)

/-- H_TEMPF(F): the sentinel before the selector (R185). -/
def handleTempf (o : Operands) : Measurement :=
  if sent o then only .outOfRange (oorUnit .tempf) o else ranged .tempf o

/-- An accepted TEMPF frame (R185, R30 case 2). -/
def execTempf (o : Operands) (s : State) : Host.Outcome State Fault Refusal :=
  .next (accept (typeByte .tempf) o (.meas (handleTempf o)) s)

end Sys2Proof.Machine
end

