-- ==== Sys2Proof/Machine/Voltage.lean ====
section
/-! DEFINITION. The voltage types: DCV, ACV and MV (R161 to R166). -/

namespace Sys2Proof.Machine

/-- H_DCV(F) (R161). -/
def handleDcv (o : Operands) : Measurement := ranged .dcv o

/-- An accepted DCV frame (R161, R30 case 2). -/
def execDcv (o : Operands) (s : State) : Host.Outcome State Fault Refusal :=
  .next (accept (typeByte .dcv) o (.meas (handleDcv o)) s)

/-- H_ACV(F) (R163). -/
def handleAcv (o : Operands) : Measurement := ranged .acv o

/-- An accepted ACV frame (R163, R30 case 2). -/
def execAcv (o : Operands) (s : State) : Host.Outcome State Fault Refusal :=
  .next (accept (typeByte .acv) o (.meas (handleAcv o)) s)

/-- H_MV(F) (R165). -/
def handleMv (o : Operands) : Measurement := ranged .mv o

/-- An accepted MV frame (R165, R30 case 2). -/
def execMv (o : Operands) (s : State) : Host.Outcome State Fault Refusal :=
  .next (accept (typeByte .mv) o (.meas (handleMv o)) s)

end Sys2Proof.Machine
end

