-- ==== Sys2Proof/Machine/Classifier.lean ====
section
/-! DEFINITION. The message-type classifier's results: the combinational core DECODE (R101) and the UNKNOWN row
(R103). -/

namespace Sys2Proof.Machine

/-- The result of one instruction: its handler's measurement, or the diagnostic of an unknown type (R101). -/
def resultOf : Instr → Result
  | .dcv o => .meas (handleDcv o)
  | .acv o => .meas (handleAcv o)
  | .mv o => .meas (handleMv o)
  | .ohm o => .meas (handleOhm o)
  | .cap o => .meas (handleCap o)
  | .tempc o => .meas (handleTempc o)
  | .ua o => .meas (handleUa o)
  | .ma o => .meas (handleMa o)
  | .amp o => .meas (handleAmp o)
  | .beep o => .meas (handleBeep o)
  | .diode o => .meas (handleDiode o)
  | .freq o => .meas (handleFreq o)
  | .tempf o => .meas (handleTempf o)
  | .unknown f6 _ => .diag f6

/-- DECODE(F), the core as one pure function of the frame (R20, R24, R101). -/
def decodeCore (f : Frame) : Result := resultOf (decodeFrame f)

/-- An accepted frame of unknown type: the diagnostic strobe, no measurement (R103, R30 case 3). -/
def execUnknown (f6 : Byte) (o : Operands) (s : State) : Host.Outcome State Fault Refusal :=
  .next (accept f6 o (.diag f6) s)

end Sys2Proof.Machine
end

