-- ==== Sys2Proof/Machine/Dispatch.lean ====
section
/-! DEFINITION. The dispatch of R101: one arm per row of the opcode table. -/

namespace Sys2Proof.Machine

def exec (i : Instr) (s : State) : Host.Outcome State Fault Refusal :=
  match i with
  | .dcv o => Sys2Proof.Machine.execDcv o s
  | .acv o => Sys2Proof.Machine.execAcv o s
  | .mv o => Sys2Proof.Machine.execMv o s
  | .ohm o => Sys2Proof.Machine.execOhm o s
  | .cap o => Sys2Proof.Machine.execCap o s
  | .tempc o => Sys2Proof.Machine.execTempc o s
  | .ua o => Sys2Proof.Machine.execUa o s
  | .ma o => Sys2Proof.Machine.execMa o s
  | .amp o => Sys2Proof.Machine.execAmp o s
  | .beep o => Sys2Proof.Machine.execBeep o s
  | .diode o => Sys2Proof.Machine.execDiode o s
  | .freq o => Sys2Proof.Machine.execFreq o s
  | .tempf o => Sys2Proof.Machine.execTempf o s
  | .unknown f6 o => Sys2Proof.Machine.execUnknown f6 o s

end Sys2Proof.Machine
end

