-- ==== Sys2Proof/Machine/Step.lean ====
section
/-! DEFINITION. The step: one rising edge of `clk` (R30). -/

namespace Sys2Proof.Machine

/-- One rising edge: the first case of R30 that the sampled ports meet. DESIGN CHOICE: before the first edge with `rst` = 1
cases 2 to 4 leave a free value in OUT, for R261 calls every field of it unspecified until that edge, and R30 updates OUT
at each (State.updateOut; log 4). -/
def step (s : State) : Host.Outcome State Fault Refusal :=
  match edgeCase s.ports with
  | .reset => .next (resetEdge s.dropPorts)
  | .frame f => exec (decodeFrame f) s.dropPorts
  | .unstable => .next (unstableEdge s.dropPorts)
  | .idle => .next (idleEdge s.dropPorts)

/-- The state whose next edge is presented the frame of a table word (log 1): UTDEC fetches nothing, and a frame comes
to it on `in_frame` with `in_valid` = 1. The edges already listed follow it. -/
def State.withFetchWord (s : State) (nbits w : Nat) : State :=
  { s with inputs := presentFrame (tableFrame nbits w) :: s.inputs }

end Sys2Proof.Machine
end

