-- ==== Sys2Proof/Safety.lean ====
section
/-! DEFINITION. The terms claims about UTDEC are made in: what a producer owes (R266), what the coded output fields
mean together, the constraints of R131 as a predicate, the states the handler rules give, and which frame of a
history the outputs show. Nothing here is part of the machine. -/

namespace Sys2Proof.Safety

open Sys2Proof.Machine

/-! ## The producer -/

/-- An edge at which the producer keeps R266: a frame it presents outside reset is stable. -/
def WellDriven (e : EdgeInput) : Prop := e.rst = true ∨ e.inValid = false ∨ e.frameStable = true

/-- Every listed edge keeps R266. -/
def InputsWellDriven (s : State) : Prop := ∀ e ∈ s.inputs, WellDriven e

/-! ## The fields of a measurement -/

/-- The ten fields of OUT that only a measurement or a reset writes (R30 case 3 names them). -/
structure Fields where
  kind : BitVec 3
  neg : Bool
  dp : BitVec 3
  unit : BitVec 5
  digits : BitVec 40
  digitErr : Bool
  vtext : BitVec 128
  vlen : BitVec 5
  utext : BitVec 32
  ulen : BitVec 3
  deriving DecidableEq, Repr

/-- The measurement fields of OUT. -/
def fields (r : Out) : Fields :=
  { kind := r.kind, neg := r.neg, dp := r.dp, unit := r.unit, digits := r.digits, digitErr := r.digitErr,
    vtext := r.vtext, vlen := r.vlen, utext := r.utext, ulen := r.ulen }

/-- The measurement fields at reset (R33). -/
def resetFields : Fields :=
  { kind := 0, neg := false, dp := 0, unit := 0, digits := 0, digitErr := false, vtext := 0, vlen := 0, utext := 0,
    ulen := 0 }

/-- The measurement fields that show a measurement M with value string `v` and unit string `u` (R22, R81). -/
def shown (m : Measurement) (v u : List Byte) : Fields :=
  { kind := kindBits m.kind, neg := m.neg, dp := dpBits m.dp, unit := unitBits m.unit, digits := m.digits,
    digitErr := m.digitErr, vtext := packBytes 128 v, vlen := BitVec.ofNat 5 v.length, utext := packBytes 32 u,
    ulen := BitVec.ofNat 3 u.length }

/-- Byte k of a text or digit port (R52). -/
def busByte {w : Nat} (v : BitVec w) (k : Nat) : Byte := v.extractLsb' (8 * k) 8

/-- The first n characters of `out_vtext`. -/
def textChars (v : BitVec 128) (n : Nat) : List Byte := (List.range n).map (busByte v)

/-- The ASCII codes of a string (R16). -/
def ascii (s : String) : List Byte := s.toList.map (fun c => BitVec.ofNat 8 c.toNat)

/-- Lane k of `out_digits` (R22). -/
def digitLane (d : BitVec 40) (k : Fin 5) : Byte := busByte d k.val

/-- Character k of `out_vtext` (R22). -/
def valueChar (v : BitVec 128) (k : Fin 16) : Byte := busByte v k.val

/-- The characters BASE + lane of the five digit lanes of `out_digits` (R141). -/
def laneChars (d : BitVec 40) : List Byte :=
  [digitLane d 0 + 0x30, digitLane d 1 + 0x30, digitLane d 2 + 0x30, digitLane d 3 + 0x30, digitLane d 4 + 0x30]

/-- The value string that the coded fields stand for (R140, R142, R143): it is a function of them. -/
def codedText (f : Fields) : List Byte :=
  match f.kind.toNat with
  | 0 => (if f.neg then [0x2D] else []) ++ (laneChars f.digits).take f.dp.toNat ++ [0x2E]
      ++ (laneChars f.digits).drop f.dp.toNat
  | 1 => textError
  | 2 => textOutOfRange
  | 3 => textOpen
  | 4 => textHighRes
  | _ => []

/-- The measurement fields agree with each other and hold no reserved code (R82, R83, R84, R126, R135, R140, R144,
R145; 93_implementation_defined.md I8). -/
structure Coherent (f : Fields) : Prop where
  kind_code : f.kind.toNat ≤ 5
  dp_code : f.dp.toNat ≤ 5
  unit_code : ∃ u : UnitCode, f.unit = unitBits u ∧ f.utext = packBytes 32 (unitText u) ∧
    f.ulen.toNat = (unitText u).length
  only_numeric : f.kind ≠ 0 → f.neg = false ∧ f.dp = 0 ∧ f.digitErr = false
  digit_err : f.kind = 0 → (f.digitErr = true ↔ ∃ k, 9 < (digitLane f.digits k).toNat)
  value_text : f.vtext = packBytes 128 (codedText f)
  value_len : f.vlen.toNat = (codedText f).length

/-- The two fields every accepted frame writes agree, and the strobes agree with them (R30, R102, R234). -/
structure TypeCoherent (r : Out) : Prop where
  not_both : ¬ (r.valid = true ∧ r.diag = true)
  typ_code : r.typ.toNat = if 0x31 ≤ r.typeRaw.toNat ∧ r.typeRaw.toNat ≤ 0x3D then r.typeRaw.toNat - 0x30 else 0
  valid_known : r.valid = true → r.typ ≠ 0
  diag_unknown : r.diag = true → r.typ = 0

/-- The invariant of the output stage: its fields show a measurement, or they are still as reset left them and
`out_valid` has not been 1 since. -/
def OutInv (r : Out) : Prop :=
  TypeCoherent r ∧ (Coherent (fields r) ∨ (fields r = resetFields ∧ r.valid = false))

/-- The invariant of a run whose producer keeps R266: once a reset has come, OUT is coherent. Before that no field of it
has a value (R261). -/
def Inv (s : State) : Prop := (s.resetSeen = true → OutInv s.out) ∧ InputsWellDriven s

/-! ## The constraints on RangeTable -/

/-- Every entry of a type is UNMAPPED or has a unit of the family. -/
def UnitsIn (c : Table) (t : MsgType) (family : List UnitCode) : Prop :=
  ∀ s, c t s = none ∨ ∃ p, ∃ u ∈ family, c t s = some (p, u)

/-- Every constraint R131 places on RangeTable, row by row. A pattern is in 0..5 by its type, DIODE's row is open and
BEEP's is not consulted. -/
structure MeetsR131 (c : Table) : Prop where
  dcv_mapped : ∀ s, (c .dcv s).isSome = true ↔ 1 ≤ s.val ∧ s.val ≤ 4
  dcv_two : c .dcv 2 = some (2, .uV)
  dcv_units : UnitsIn c .dcv [.uV, .uMV]
  acv_units : UnitsIn c .acv [.uV, .uMV]
  mv_units : UnitsIn c .mv [.uV, .uMV]
  ohm_mapped : ∀ s, (c .ohm s).isSome = true ↔ 1 ≤ s.val ∧ s.val ≤ 6
  ohm_one : c .ohm 1 = some (3, .uOhm)
  ohm_units : UnitsIn c .ohm [.uOhm, .uKohm, .uMohm]
  cap_gap : ∃ s, c .cap s = none
  cap_units : UnitsIn c .cap [.uNF, .uUF, .uMF]
  tempc_units : UnitsIn c .tempc [.uC]
  ua_units : UnitsIn c .ua [.uUA, .uMA, .uA]
  ma_units : UnitsIn c .ma [.uUA, .uMA, .uA]
  amp_units : UnitsIn c .amp [.uUA, .uMA, .uA]
  freq_mapped : ∀ s, (c .freq s).isSome = true
  freq_units : UnitsIn c .freq [.uHz, .uKHz, .uMHz]
  tempf_units : UnitsIn c .tempf [.uF]

/-! ## The states the handler rules give

They are written from frame bytes, not lanes: F[i] = 0x30 + k where the rules say lane(i) = k (R123). -/

/-- The selector byte of selector k (R123). -/
def selByte (k : Selector) : Byte := BitVec.ofNat 8 (0x30 + k.val)

/-- The selector byte is none of 0x30..0x37: a selector lane not in 0..7 (R123, R132). -/
def selectorOutside (o : Operands) : Prop := o.f5.toNat < 0x30 ∨ 0x37 < o.f5.toNat

/-- A byte is no decimal digit character (R123, R135). -/
def notDigit (b : Byte) : Bool := decide (b.toNat < 0x30) || decide (0x39 < b.toNat)

/-- Some digit byte is no decimal digit character (R135). -/
def anyNotDigit (o : Operands) : Bool :=
  notDigit o.f0 || notDigit o.f1 || notDigit o.f2 || notDigit o.f3 || notDigit o.f4

/-- The state after a measurement of a type with code `code` and byte 6 `f6`: the strobes, the type fields and the ten
measurement fields, and nothing else changed (R30 case 2). -/
def measuredState (s : State) (code : BitVec 4) (f6 : Byte) (o : Operands) (kind : BitVec 3) (neg : Bool)
    (dp : BitVec 3) (unit : BitVec 5) (digitErr : Bool) (v u : List Byte) : State :=
  { s with
    out :=
      { valid := true, diag := false, typ := code, typeRaw := f6, kind := kind, neg := neg, dp := dp, unit := unit
        digits := packBytes 40 [o.f0 - 0x30, o.f1 - 0x30, o.f2 - 0x30, o.f3 - 0x30, o.f4 - 0x30]
        digitErr := digitErr, vtext := packBytes 128 v, vlen := BitVec.ofNat 5 v.length
        utext := packBytes 32 u, ulen := BitVec.ofNat 3 u.length } }

/-- The state after a NUMERIC measurement with pattern p and unit u (R133, R135, R140, R160). -/
def numericState (s : State) (code : BitVec 4) (f6 : Byte) (o : Operands) (neg : Bool) (p : PrintPattern)
    (u : UnitCode) : State :=
  measuredState s code f6 o 0 neg (BitVec.ofNat 3 p.val) (unitBits u) (anyNotDigit o)
    ((if neg then [0x2D] else []) ++ [o.f0, o.f1, o.f2, o.f3, o.f4].take p.val ++ [0x2E]
      ++ [o.f0, o.f1, o.f2, o.f3, o.f4].drop p.val)
    (unitText u)

/-- The state after a measurement of another kind: no sign, pattern 0, no digit error (R160). -/
def otherState (s : State) (code : BitVec 4) (f6 : Byte) (o : Operands) (kind : BitVec 3) (u : UnitCode)
    (text : List Byte) : State :=
  measuredState s code f6 o kind false 0 (unitBits u) false text (unitText u)

/-- ("error", "") (R231). -/
def errorState (s : State) (code : BitVec 4) (f6 : Byte) (o : Operands) : State :=
  otherState s code f6 o 1 .uNone textError

/-- ("out of range", unit) (R133). -/
def outOfRangeState (s : State) (code : BitVec 4) (f6 : Byte) (o : Operands) (u : UnitCode) : State :=
  otherState s code f6 o 2 u textOutOfRange

/-- ("open", "") (R133). -/
def openState (s : State) (code : BitVec 4) (f6 : Byte) (o : Operands) : State :=
  otherState s code f6 o 3 .uNone textOpen

/-- The state that a range table entry gives: NUMERIC where it is mapped, `unmapped` where it is not (R160). -/
def entryState (s : State) (code : BitVec 4) (f6 : Byte) (o : Operands) (neg : Bool) (unmapped : State) :
    Option (PrintPattern × UnitCode) → State
  | some (p, u) => numericState s code f6 o neg p u
  | none => unmapped

/-- What RANGED(t) does with one frame (R130, R160): a selector byte 0x30 + k gives the table's entry k, and any other
selector byte, or an UNMAPPED entry, gives `unmapped`. -/
def ReadsTable (i : Instr) (t : MsgType) (s : State) (code : BitVec 4) (f6 : Byte) (o : Operands) (neg : Bool)
    (unmapped : State) : Prop :=
  (∀ k : Selector, o.f5 = selByte k →
    exec i s = .next (entryState s code f6 o neg unmapped (rangeTable t k))) ∧
  (selectorOutside o → exec i s = .next unmapped)

/-- Byte 6 = `f6` selects the constructor `mk` with the frame's own bytes as its operands (R70, R80). -/
def SelectedBy (f6 : Byte) (mk : Operands → Instr) : Prop :=
  ∀ f : Frame, frameByte f 6 = f6 → decodeFrame f = mk (frameOperands f)

/-! ## Which frame of a history the outputs show -/

/-- The edges after the last reset of a history, oldest first (R260). -/
def sinceReset (h : List EdgeInput) : List EdgeInput := (h.reverse.takeWhile (fun e => !e.rst)).reverse

/-- The frame an edge accepts (R30 cases 2 and 3). -/
def acceptedFrame (e : EdgeInput) : Option Frame := if !e.rst && e.inValid then some e.inFrame else none

/-- The last accepted frame since the last reset. -/
def lastAccepted (h : List EdgeInput) : Option Frame := ((sinceReset h).filterMap acceptedFrame).getLast?

/-- Whether DECODE answers a measurement. -/
def isMeasured (f : Frame) : Bool :=
  match decodeCore f with
  | .meas _ => true
  | .diag _ => false

/-- The last accepted frame since the last reset whose result was a measurement. -/
def lastMeasured (h : List EdgeInput) : Option Frame :=
  (((sinceReset h).filterMap acceptedFrame).filter isMeasured).getLast?

/-- The measurement fields a frame's result gives (R30 case 2), those before it where the result is a diagnostic. -/
def fieldsAfter (f : Frame) (before : Fields) : Fields :=
  match decodeCore f with
  | .meas m => shown m (valueText m (frameOperands f)) (unitText m.unit)
  | .diag _ => before

end Sys2Proof.Safety
end

