-- ==== Sys2Proof/Certificates/Slice0/Obligations.lean ====
section
/-! DEFINITION. The statements about UTDEC for the provers. A rule's constants and byte tests are written out here from
the rule, not taken from the model's own definitions of them. Where a statement takes `resetSeen`, it is of a machine that has
seen an edge with `rst` = 1, the states in which OUT has values (R261); what happens before that edge is stated by
BeforeTheFirstResetAFrameLeavesAFreeOut and UntilTheFirstResetOutIsAFreeValue. -/

open Sys2Proof Sys2Proof.Machine Sys2Proof.Safety

/-! ## Encoding -/

/-- Decoding the encoding of any well-formed instruction gives it back, with every operand byte at every value: over
the eleven bytes, over the bus, and over the host's table word (R70, R80, R86). -/
def Obligations.DecodeOfEncodeIsTheInstruction : Prop :=
  ∀ i : Instr, i.wf = true →
    decode (encode i) = .ok i ∧ decodeFrame (encodeFrame i) = i ∧
    decodeTableWord 88 (encodeFrame i).toNat = some i

/-- Every one of the 2^88 frames decodes to a well-formed instruction whose encoding is that frame: no bit is dropped,
the reserved bytes included (R75). -/
def Obligations.EncodeOfDecodeIsTheFrame : Prop :=
  ∀ f : Frame, (decodeFrame f).wf = true ∧ encodeFrame (decodeFrame f) = f ∧ encode (decodeFrame f) = frameBytes f

/-- A byte list decodes exactly when it is one frame of 11 bytes, and any other length is refused by name (R54, R79;
that the model gives the refusal a name is its own choice, log 8). -/
def Obligations.OnlyElevenBytesDecode : Prop :=
  ∀ bs : List Byte,
    (bs.length = 11 → ∃ i, decode bs = .ok i ∧ encode i = bs) ∧
    (bs.length ≠ 11 → decode bs = .error (.frameLength bs.length))

/-- R86: the table has fourteen rows; a type row's mask covers bits 55:48 and its match is the type's byte 6 there;
UNKNOWN is last with mask and match 0; the first row that matches is the decoded type's, so UNKNOWN is selected exactly
when F[6] is outside 0x31..0x3D. -/
def Obligations.FirstMatchingRowIsTheDecodedType : Prop :=
  opcodeTable.length = 14 ∧
  (∀ r ∈ opcodeTable, ∀ t, r.msgType = some t → r.mask = 0xFF <<< 48 ∧ r.pattern = (typeByte t).setWidth 88 <<< 48) ∧
  opcodeTable.getLast? = some ⟨none, 0, 0⟩ ∧
  ∀ f : Frame, ∃ r, firstRow f = some r ∧ r.msgType = (decodeFrame f).msgType ∧
    (r.msgType = none ↔ (frameByte f 6).toNat < 0x31 ∨ 0x3D < (frameByte f 6).toNat)

/-- Words of the spec's own vectors, written out from its hex spellings, decode to the instructions they stand for:
E1, E2, E3, V121, V92 and the table word of V111. -/
def Obligations.SpecWordsDecode : Prop :=
  decode [0x31, 0x32, 0x33, 0x34, 0x35, 0x32, 0x31, 0x30, 0x35, 0x30, 0x30] =
    .ok (.dcv ⟨0x31, 0x32, 0x33, 0x34, 0x35, 0x32, 0x30, 0x35, 0x30, 0x30⟩) ∧
  decode [0x30, 0x30, 0x35, 0x30, 0x30, 0x31, 0x34, 0x30, 0x30, 0x30, 0x30] =
    .ok (.ohm ⟨0x30, 0x30, 0x35, 0x30, 0x30, 0x31, 0x30, 0x30, 0x30, 0x30⟩) ∧
  decode [0x3A, 0x30, 0x30, 0x30, 0x30, 0x30, 0x35, 0x30, 0x30, 0x30, 0x30] =
    .ok (.cap ⟨0x3A, 0x30, 0x30, 0x30, 0x30, 0x30, 0x30, 0x30, 0x30, 0x30⟩) ∧
  decode [0x31, 0x32, 0x33, 0x34, 0x35, 0x32, 0x3E, 0x30, 0x35, 0x30, 0x30] =
    .ok (.unknown 0x3E ⟨0x31, 0x32, 0x33, 0x34, 0x35, 0x32, 0x30, 0x35, 0x30, 0x30⟩) ∧
  decodeFrame 0x3030353031323534333231 = .dcv ⟨0x31, 0x32, 0x33, 0x34, 0x35, 0x32, 0x30, 0x35, 0x30, 0x30⟩ ∧
  decodeTableWord 88 0x303030303A313231303030 =
    some (.beep ⟨0x30, 0x30, 0x30, 0x31, 0x32, 0x31, 0x30, 0x30, 0x30, 0x30⟩) ∧
  decodeTableWord 88 0x303035303C373534333231 =
    some (.freq ⟨0x31, 0x32, 0x33, 0x34, 0x35, 0x37, 0x30, 0x35, 0x30, 0x30⟩)

/-- R120: the lane is the byte less 0x30 with 8-bit wrap-around, so 0x30..0x3F give 0..15, 0x40..0xFF give 16..207 and
0x00..0x2F give 208..255. -/
def Obligations.LaneWrapsAroundAtEightBits : Prop :=
  ∀ b : Byte,
    (0x30 ≤ b.toNat → (lane b).toNat = b.toNat - 0x30) ∧
    (b.toNat < 0x30 → (lane b).toNat = b.toNat + 208) ∧
    (0x30 ≤ b.toNat → b.toNat ≤ 0x3F → (lane b).toNat ≤ 15) ∧
    (0x40 ≤ b.toNat → 16 ≤ (lane b).toNat ∧ (lane b).toNat ≤ 207) ∧
    (b.toNat < 0x30 → 208 ≤ (lane b).toNat)

/-- R123: an equality test on a lane is one on the byte, a range test 0..k on the lane is 0x30..0x30+k on the byte, and
both agree with the unbounded lane F[i] - 48 when the range test is read as membership. -/
def Obligations.LaneTestsAreByteTests : Prop :=
  ∀ (b : Byte) (k : Nat), k ≤ 13 →
    (lane b = BitVec.ofNat 8 k ↔ b = BitVec.ofNat 8 (0x30 + k)) ∧
    ((lane b).toNat ≤ k ↔ 0x30 ≤ b.toNat ∧ b.toNat ≤ 0x30 + k) ∧
    ((lane b).toNat = k ↔ (b.toNat : Int) - 48 = k) ∧
    ((lane b).toNat ≤ k ↔ 0 ≤ (b.toNat : Int) - 48 ∧ (b.toNat : Int) - 48 ≤ k)

/-! ## The edge -/

/-- A step whose edge is presented a stable frame without reset is exec of the decoded frame, on the state from which
the edge's ports have left. Every frame is some instruction's (EncodeOfDecodeIsTheFrame), so this is how every
instruction comes to run. -/
def Obligations.StepRunsTheDecodedFrame : Prop :=
  ∀ (s : State) (e : EdgeInput) (es : List EdgeInput), s.inputs = e :: es →
    e.rst = false → e.inValid = true → e.frameStable = true →
    step s = exec (decodeFrame e.inFrame) { s with inputs := es }

/-- The state of withFetchWord runs the table word at its very next step, and leaves the rest of the state (the
model's own way to present a frame, log 1). -/
def Obligations.FetchedWordRunsNext : Prop :=
  ∀ (s : State) (n w : Nat), n ≤ 88 → w < 2 ^ n →
    step (s.withFetchWord n w) = exec (decodeFrame (BitVec.ofNat 88 w)) s

/-- R260 with the values of R33: an edge with `rst` = 1 gives every field of OUT its reset value, whatever frame is
presented at it, and accepts none. -/
def Obligations.ResetEdgeGivesResetValues : Prop :=
  ∀ (s : State) (e : EdgeInput) (es : List EdgeInput), s.inputs = e :: es → e.rst = true →
    step s = .next
      { out := { valid := false, diag := false, typ := 0, typeRaw := 0x00, kind := 0, neg := false, dp := 0,
                 unit := 0, digits := 0x0000000000, digitErr := false, vtext := 0x0, vlen := 0, utext := 0x0, ulen := 0 }
        inputs := es, draws := s.draws, resetSeen := true }

/-- R261, R263: one edge with `rst` = 1 makes the machine State.reset whatever OUT was; the free draws already made stay
counted (that the model has a state before the first reset is log 4). -/
def Obligations.FirstResetForgetsPowerOn : Prop :=
  ∀ (e : EdgeInput) (es : List EdgeInput), e.rst = true →
    step (State.powerOn (e :: es)) = .next { State.reset with inputs := es, draws := 1 } ∧
    ∀ (r : Out) (n : Nat) (b : Bool), step { out := r, inputs := e :: es, draws := n, resetSeen := b } =
      .next { State.reset with inputs := es, draws := n }

/-- R261, 92_eei_decisions.md D20, 93_implementation_defined.md I6: executing any frame before the first edge with
`rst` = 1 leaves a free value in every field of OUT, one of its own for each such edge (the form is log 4). -/
def Obligations.BeforeTheFirstResetAFrameLeavesAFreeOut : Prop :=
  ∀ (i : Instr) (s : State), s.resetSeen = false →
    exec i s = .next { s with out := Config.freeOut s.draws, draws := s.draws + 1 }

/-- R261 with R263: from power-on, whatever edges without `rst` come, frames and idle ones alike, OUT is nothing but a free
value, and the first edge with `rst` = 1 makes the machine State.reset (the form is log 4). -/
def Obligations.UntilTheFirstResetOutIsAFreeValue : Prop :=
  ∀ h es : List EdgeInput, (∀ e ∈ h, e.rst = false) →
    Sys2Proof.core.run h.length (State.powerOn (h ++ es)) = .next
      { out := Config.freeOut h.length, inputs := es, draws := h.length + 1, resetSeen := false } ∧
    ∀ e : EdgeInput, e.rst = true →
      Sys2Proof.core.run (h.length + 1) (State.powerOn (h ++ e :: es)) = .next
        { State.reset with inputs := es, draws := h.length + 1 }

/-- R30 case 4: at an edge with no frame the strobes fall and every other field of OUT holds. -/
def Obligations.IdleEdgeHoldsTheData : Prop :=
  ∀ (s : State) (e : EdgeInput) (es : List EdgeInput), s.inputs = e :: es → s.resetSeen = true →
    e.rst = false → e.inValid = false →
    step s = .next { s with out := { s.out with valid := false, diag := false }, inputs := es }

/-- The model's choice (log 2): past the listed edges nothing is presented, so such an edge is an idle one. -/
def Obligations.UnlistedEdgeIsIdle : Prop :=
  ∀ s : State, s.inputs = [] → s.resetSeen = true →
    step s = .next { s with out := { s.out with valid := false, diag := false } }

/-- The model's choice of form (log 3) for 93_implementation_defined.md I12: an edge that samples a frame still
changing loads OUT with a free value, one of its own for each such edge. -/
def Obligations.UnstableFrameLoadsAFreeValue : Prop :=
  ∀ (s : State) (e : EdgeInput) (es : List EdgeInput), s.inputs = e :: es →
    e.rst = false → e.inValid = true → e.frameStable = false →
    step s = .next { s with out := Config.freeOut s.draws, inputs := es, draws := s.draws + 1 }

/-- R30 whole, with R31: at every edge whose frame, if one is accepted, is stable, OUT is updated by the first case
that applies. A reset edge may be the first one; cases 2 to 4 are of a machine that has seen one (R261). -/
def Obligations.EveryEdgeUpdatesOutByTheFirstCase : Prop :=
  ∀ s : State, WellDriven s.ports → s.resetSeen = true ∨ s.ports.rst = true →
    ∃ t, step s = .next t ∧ t.resetSeen = true ∧
    (s.ports.rst = true →
      t.out.valid = false ∧ t.out.diag = false ∧ t.out.typ = 0 ∧ t.out.typeRaw = 0 ∧ fields t.out = resetFields) ∧
    (s.ports.rst = false → s.ports.inValid = true →
      t.out.typ = typecode (frameByte s.ports.inFrame 6) ∧ t.out.typeRaw = frameByte s.ports.inFrame 6 ∧
      (∀ m, decodeCore s.ports.inFrame = .meas m →
        t.out.valid = true ∧ t.out.diag = false ∧
        fields t.out = shown m (valueText m (frameOperands s.ports.inFrame)) (unitText m.unit)) ∧
      (∀ b, decodeCore s.ports.inFrame = .diag b →
        b = frameByte s.ports.inFrame 6 ∧ t.out.valid = false ∧ t.out.diag = true ∧ fields t.out = fields s.out)) ∧
    (s.ports.rst = false → s.ports.inValid = false →
      t.out.valid = false ∧ t.out.diag = false ∧ t.out.typ = s.out.typ ∧ t.out.typeRaw = s.out.typeRaw ∧
      fields t.out = fields s.out)

/-- R235, R265: no frame, reset or signal ever stops UTDEC. Any number of edges completes, and each uses up one listed
edge. -/
def Obligations.NoNumberOfEdgesStops : Prop :=
  ∀ (k : Nat) (s : State), ∃ t : State, Sys2Proof.core.run k s = .next t ∧ t.inputs = s.inputs.drop k

/-! ## The handlers: what every instruction completes with -/

/-- R161: DCV maps exactly selectors 1..4, entry 2 is (2, U_V), its sign value is 5, any other selector is an error. -/
def Obligations.DcvFramesReadTheRangeTable : Prop :=
  SelectedBy 0x31 .dcv ∧
  (∀ (o : Operands) (s : State), s.resetSeen = true → ReadsTable (.dcv o) .dcv s 1 0x31 o (o.f8 == 0x35) (errorState s 1 0x31 o)) ∧
  (∀ k, (rangeTable .dcv k).isSome = true ↔ k = 1 ∨ k = 2 ∨ k = 3 ∨ k = 4) ∧
  rangeTable .dcv 2 = some (2, .uV)

/-- R163: ACV reads the table in volts or millivolts and never shows a sign, whatever the sign byte is. -/
def Obligations.AcvFramesNeverShowASign : Prop :=
  SelectedBy 0x32 .acv ∧
  (∀ (o : Operands) (s : State), s.resetSeen = true → ReadsTable (.acv o) .acv s 2 0x32 o false (errorState s 2 0x32 o)) ∧
  UnitsIn rangeTable .acv [.uV, .uMV]

/-- R165: MV reads the table in volts or millivolts, its sign value is 4, an unmapped selector is an error. -/
def Obligations.MvFramesReadTheRangeTable : Prop :=
  SelectedBy 0x33 .mv ∧
  (∀ (o : Operands) (s : State), s.resetSeen = true → ReadsTable (.mv o) .mv s 3 0x33 o (o.f8 == 0x34) (errorState s 3 0x33 o)) ∧
  UnitsIn rangeTable .mv [.uV, .uMV]

/-- R173, R175, R177: the three current types read the table in the amps family, their sign value is 4, an unmapped
selector is an error. -/
def Obligations.CurrentFramesReadTheRangeTable : Prop :=
  SelectedBy 0x37 .ua ∧ SelectedBy 0x38 .ma ∧ SelectedBy 0x39 .amp ∧
  (∀ (o : Operands) (s : State), s.resetSeen = true →
    ReadsTable (.ua o) .ua s 7 0x37 o (o.f8 == 0x34) (errorState s 7 0x37 o) ∧
    ReadsTable (.ma o) .ma s 8 0x38 o (o.f8 == 0x34) (errorState s 8 0x38 o) ∧
    ReadsTable (.amp o) .amp s 9 0x39 o (o.f8 == 0x34) (errorState s 9 0x39 o)) ∧
  UnitsIn rangeTable .ua [.uUA, .uMA, .uA] ∧ UnitsIn rangeTable .ma [.uUA, .uMA, .uA] ∧
  UnitsIn rangeTable .amp [.uUA, .uMA, .uA]

/-- R167: OHM answers out of range in ohms on the sentinel, before its selector is looked at; otherwise it maps exactly
1..6, entry 1 is (3, U_OHM), and any other selector is an error. -/
def Obligations.OhmFramesTestTheSentinelFirst : Prop :=
  SelectedBy 0x34 .ohm ∧
  (∀ (o : Operands) (s : State), s.resetSeen = true →
    (o.f0 = 0x3A → exec (.ohm o) s = .next (outOfRangeState s 4 0x34 o .uOhm)) ∧
    (o.f0 ≠ 0x3A → ReadsTable (.ohm o) .ohm s 4 0x34 o false (errorState s 4 0x34 o))) ∧
  (∀ k, (rangeTable .ohm k).isSome = true ↔ k = 1 ∨ k = 2 ∨ k = 3 ∨ k = 4 ∨ k = 5 ∨ k = 6) ∧
  rangeTable .ohm 1 = some (3, .uOhm)

/-- R169: CAP answers out of range with an empty unit on the sentinel; otherwise it reads the table in farads, with at
least one gap, and an unmapped selector is an error. -/
def Obligations.CapFramesTestTheSentinelFirst : Prop :=
  SelectedBy 0x35 .cap ∧
  (∀ (o : Operands) (s : State), s.resetSeen = true →
    (o.f0 = 0x3A → exec (.cap o) s = .next (outOfRangeState s 5 0x35 o .uNone)) ∧
    (o.f0 ≠ 0x3A → ReadsTable (.cap o) .cap s 5 0x35 o false (errorState s 5 0x35 o))) ∧
  (∃ k, rangeTable .cap k = none) ∧
  UnitsIn rangeTable .cap [.uNF, .uUF, .uMF]

/-- R171, R185: the temperature types answer out of range in their own degree on the sentinel; otherwise they read the
table in that degree, unsigned, and an unmapped selector is an error. -/
def Obligations.TemperatureFramesTestTheSentinelFirst : Prop :=
  SelectedBy 0x36 .tempc ∧ SelectedBy 0x3D .tempf ∧
  (∀ (o : Operands) (s : State), s.resetSeen = true →
    (o.f0 = 0x3A → exec (.tempc o) s = .next (outOfRangeState s 6 0x36 o .uC) ∧
      exec (.tempf o) s = .next (outOfRangeState s 13 0x3D o .uF)) ∧
    (o.f0 ≠ 0x3A → ReadsTable (.tempc o) .tempc s 6 0x36 o false (errorState s 6 0x36 o) ∧
      ReadsTable (.tempf o) .tempf s 13 0x3D o false (errorState s 13 0x3D o))) ∧
  UnitsIn rangeTable .tempc [.uC] ∧ UnitsIn rangeTable .tempf [.uF]

/-- R179: BEEP answers open on the sentinel, else an unsigned ohm value with BeepPattern on selector 0, else high
resistance. -/
def Obligations.BeepFramesAnswerInOrder : Prop :=
  SelectedBy 0x3A .beep ∧
  ∀ (o : Operands) (s : State), s.resetSeen = true →
    (o.f0 = 0x3A → exec (.beep o) s = .next (openState s 10 0x3A o)) ∧
    (o.f0 ≠ 0x3A → o.f5 = 0x30 →
      exec (.beep o) s = .next (numericState s 10 0x3A o false Config.beepPattern .uOhm)) ∧
    (o.f0 ≠ 0x3A → o.f5 ≠ 0x30 → exec (.beep o) s = .next (otherState s 10 0x3A o 4 .uNone textHighRes))

/-- R181: DIODE answers open on the sentinel; otherwise it reads the table, and an unmapped selector is an error. -/
def Obligations.DiodeFramesTestTheSentinelFirst : Prop :=
  SelectedBy 0x3B .diode ∧
  ∀ (o : Operands) (s : State), s.resetSeen = true →
    (o.f0 = 0x3A → exec (.diode o) s = .next (openState s 11 0x3B o)) ∧
    (o.f0 ≠ 0x3A → ReadsTable (.diode o) .diode s 11 0x3B o false (errorState s 11 0x3B o))

/-- R183: FREQ maps every selector 0..7 in the hertz family, has no sentinel and no sign, and a selector above 7 gives
NODEFAULT with empty strings, never an error. -/
def Obligations.FreqFramesHaveNoError : Prop :=
  SelectedBy 0x3C .freq ∧
  (∀ (o : Operands) (s : State), s.resetSeen = true →
    ReadsTable (.freq o) .freq s 12 0x3C o false (otherState s 12 0x3C o 5 .uNone [])) ∧
  (∀ k, ∃ p u, rangeTable .freq k = some (p, u) ∧ (u = .uHz ∨ u = .uKHz ∨ u = .uMHz)) ∧
  ∀ (o : Operands) (s : State), s.resetSeen = true → ∃ t, exec (.freq o) s = .next t ∧ (t.out.kind = 0 ∨ t.out.kind = 5)

/-- R103: a byte 6 outside 0x31..0x3D, and no other, is an unknown type: the diagnostic strobe, type 0, the raw byte,
and every measurement field held. The strobe pulses: at any edge that keeps R266, whatever OUT held, it is 1 exactly when
that edge itself accepts such a frame, so the frame after it is decoded as any other. -/
def Obligations.UnknownTypesAreDiagnosedOnly : Prop :=
  (∀ f : Frame, (frameByte f 6).toNat < 0x31 ∨ 0x3D < (frameByte f 6).toNat →
    decodeFrame f = .unknown (frameByte f 6) (frameOperands f) ∧ decodeCore f = .diag (frameByte f 6)) ∧
  (∀ f : Frame, 0x31 ≤ (frameByte f 6).toNat → (frameByte f 6).toNat ≤ 0x3D → ∃ m, decodeCore f = .meas m) ∧
  (∀ (f6 : Byte) (o : Operands) (s : State), s.resetSeen = true → f6.toNat < 0x31 ∨ 0x3D < f6.toNat →
    exec (.unknown f6 o) s = .next
      { s with out := { s.out with valid := false, diag := true, typ := 0, typeRaw := f6 } }) ∧
  ∀ s : State, WellDriven s.ports → s.resetSeen = true ∨ s.ports.rst = true → ∃ t, step s = .next t ∧
    (t.out.diag = true ↔ s.ports.rst = false ∧ s.ports.inValid = true ∧
      ((frameByte s.ports.inFrame 6).toNat < 0x31 ∨ 0x3D < (frameByte s.ports.inFrame 6).toNat))

/-! ## Rules over all instructions -/

/-- R102: every accepted frame loads the raw byte 6 and its type code, which is never 14 or 15. -/
def Obligations.EveryFrameLoadsItsTypeCode : Prop :=
  ∀ (f : Frame) (s : State), s.resetSeen = true → ∃ t, exec (decodeFrame f) s = .next t ∧
    t.out.typeRaw = frameByte f 6 ∧
    t.out.typ.toNat =
      (if 1 ≤ ((frameByte f 6).toNat + 208) % 256 ∧ ((frameByte f 6).toNat + 208) % 256 ≤ 13
        then ((frameByte f 6).toNat + 208) % 256 else 0) ∧
    t.out.typ ≠ 14 ∧ t.out.typ ≠ 15

/-- R105: the classification depends on F[6] alone, neither on another byte nor on OUT. -/
def Obligations.ClassificationDependsOnByteSixOnly : Prop :=
  ∀ (f g : Frame) (s r : State), frameByte f 6 = frameByte g 6 →
    (decodeFrame f).msgType = (decodeFrame g).msgType ∧
    (s.resetSeen = true → r.resetSeen = true → ∃ t u, exec (decodeFrame f) s = .next t ∧ exec (decodeFrame g) r = .next u ∧
      t.out.valid = u.out.valid ∧ t.out.diag = u.out.diag ∧ t.out.typ = u.out.typ ∧ t.out.typeRaw = u.out.typeRaw)

/-- R233: one frame gives one result, the first of the five conditions that applies. -/
def Obligations.KindIsTheFirstConditionThatApplies : Prop :=
  ∀ (i : Instr) (s : State), s.resetSeen = true → i.wf = true → ∃ t, exec i s = .next t ∧
    (i.msgType = none → t.out.diag = true ∧ t.out.valid = false ∧ fields t.out = fields s.out) ∧
    ∀ ty, i.msgType = some ty →
      t.out.valid = true ∧ t.out.diag = false ∧
      t.out.kind =
        (if ty ∈ [MsgType.ohm, .cap, .tempc, .tempf] ∧ i.operands.f0 = 0x3A then 2
         else if ty ∈ [MsgType.beep, .diode] ∧ i.operands.f0 = 0x3A then 3
         else if ty = .beep ∧ i.operands.f5 ≠ 0x30 then 4
         else if ty ≠ .beep ∧ range ty i.operands = none then (if ty = .freq then 5 else 1)
         else 0) ∧
      (t.out.kind = 0 → t.out.neg = negFlag ty i.operands ∧ t.out.digitErr = anyNotDigit i.operands)

/-- R231, below the sentinels of R233: an UNMAPPED selector gives ("error", "") for eleven types and NODEFAULT for
FREQ; BEEP has none, so it is never ERROR or NODEFAULT. -/
def Obligations.UnmappedSelectorGivesError : Prop :=
  ∀ (i : Instr) (s : State), s.resetSeen = true →
    (∀ ty ∈ [MsgType.dcv, .acv, .mv, .ua, .ma, .amp], i.msgType = some ty → range ty i.operands = none →
      exec i s = .next (errorState s (typecode (typeByte ty)) (typeByte ty) i.operands)) ∧
    (∀ ty ∈ [MsgType.ohm, .cap, .tempc, .diode, .tempf], i.msgType = some ty → range ty i.operands = none →
      i.operands.f0 ≠ 0x3A →
      exec i s = .next (errorState s (typecode (typeByte ty)) (typeByte ty) i.operands)) ∧
    (i.msgType = some .freq → range .freq i.operands = none →
      exec i s = .next (otherState s 12 0x3C i.operands 5 .uNone [])) ∧
    (i.msgType = some .beep → ∃ t, exec i s = .next t ∧ t.out.kind ≠ 1 ∧ t.out.kind ≠ 5)

/-- R125, R126: the sign flag of a measurement is 1 exactly when it is NUMERIC and the sign byte is the type's
negative value, 0x35 for DCV and 0x34 for MV, UA, MA and AMP. -/
def Obligations.SignFlagOnlyOnNegativeNumericValues : Prop :=
  ∀ (i : Instr) (s : State) (ty : MsgType), i.msgType = some ty →
    (negFlag ty i.operands = true ↔
      (ty = .dcv ∧ i.operands.f8 = 0x35) ∨ (ty ∈ [MsgType.mv, .ua, .ma, .amp] ∧ i.operands.f8 = 0x34)) ∧
    (s.resetSeen = true → ∃ t, exec i s = .next t ∧
      (t.out.neg = true ↔ t.out.kind = 0 ∧
        ((ty = .dcv ∧ i.operands.f8 = 0x35) ∨ (ty ∈ [MsgType.mv, .ua, .ma, .amp] ∧ i.operands.f8 = 0x34))) ∧
      (t.out.kind ≠ 0 → busByte t.out.vtext 0 ≠ 0x2D))

/-- R127: for the eight types without a sign, byte 8 changes no output. -/
def Obligations.UnsignedTypesIgnoreTheSignByte : Prop :=
  ∀ (f g : Frame) (s : State) (ty : MsgType),
    ty ∈ [MsgType.acv, .ohm, .cap, .tempc, .beep, .diode, .freq, .tempf] →
    (decodeFrame f).msgType = some ty → (∀ k : Fin 11, k ≠ 8 → frameByte f k = frameByte g k) →
    decodeCore f = decodeCore g ∧
    ∃ t, exec (decodeFrame f) s = .next t ∧ exec (decodeFrame g) s = .next t ∧
      (s.resetSeen = true → t.out.neg = false)

/-- R76: two frames that differ only in bytes 7, 9 and 10 give the same DECODE result and the same OUT. -/
def Obligations.ReservedBytesChangeNoOutput : Prop :=
  ∀ (f g : Frame) (s : State),
    (∀ k : Fin 11, k ≠ 7 → k ≠ 9 → k ≠ 10 → frameByte f k = frameByte g k) →
    decodeCore f = decodeCore g ∧ ∃ t, exec (decodeFrame f) s = .next t ∧ exec (decodeFrame g) s = .next t

/-- R135: the digit error flag of a measurement is 1 exactly when it is NUMERIC and some digit byte is no '0'..'9'. -/
def Obligations.DigitErrOnlyOnBadNumericDigits : Prop :=
  ∀ (i : Instr) (s : State) (ty : MsgType), s.resetSeen = true → i.msgType = some ty → ∃ t, exec i s = .next t ∧
    (t.out.digitErr = true ↔ t.out.kind = 0 ∧
      ∃ b ∈ [i.operands.f0, i.operands.f1, i.operands.f2, i.operands.f3, i.operands.f4],
        b.toNat < 0x30 ∨ 0x39 < b.toNat)

/-- R121: `out_digits` of a measurement holds lane k of the digit bytes at [8k+7:8k], whatever the kind. -/
def Obligations.DigitPortHoldsTheLanes : Prop :=
  ∀ (i : Instr) (s : State) (ty : MsgType), s.resetSeen = true → i.msgType = some ty → ∃ t, exec i s = .next t ∧
    ∀ k : Fin 5, digitLane t.out.digits k + 0x30 =
      [i.operands.f0, i.operands.f1, i.operands.f2, i.operands.f3, i.operands.f4].getD k.val 0

/-- R146: a NUMERIC value string is the sign, the five digit bytes and one point after the first out_dp of them, 6 or 7
characters. With no digit error the digits are decimal, the point is the only one, and "-" comes first exactly when the
sign flag is 1. The frame of V46a shows that a bad digit can itself be "-". -/
def Obligations.NumericValueStringIsDigitsAroundOnePoint : Prop :=
  (∀ (i : Instr) (s : State) (ty : MsgType), s.resetSeen = true → i.msgType = some ty → ∃ t, exec i s = .next t ∧
    (t.out.kind = 0 →
      t.out.vlen.toNat = 6 + t.out.neg.toNat ∧
      textChars t.out.vtext t.out.vlen.toNat =
        (if t.out.neg then [0x2D] else []) ++
        [i.operands.f0, i.operands.f1, i.operands.f2, i.operands.f3, i.operands.f4].take t.out.dp.toNat ++ [0x2E] ++
        [i.operands.f0, i.operands.f1, i.operands.f2, i.operands.f3, i.operands.f4].drop t.out.dp.toNat ∧
      (t.out.digitErr = false →
        (∀ b ∈ [i.operands.f0, i.operands.f1, i.operands.f2, i.operands.f3, i.operands.f4],
          0x30 ≤ b.toNat ∧ b.toNat ≤ 0x39) ∧
        (textChars t.out.vtext t.out.vlen.toNat).count 0x2E = 1 ∧
        (busByte t.out.vtext 0 = 0x2D ↔ t.out.neg = true)))) ∧
  ∀ s : State, s.resetSeen = true →
    ∃ t, exec (.dcv ⟨0x2D, 0x32, 0x33, 0x34, 0x35, 0x32, 0x30, 0x30, 0x30, 0x30⟩) s = .next t ∧
    textChars t.out.vtext t.out.vlen.toNat = ascii "-2.345" ∧ t.out.neg = false ∧ t.out.digitErr = true

/-- R144, R145: character k of the value string at [8k+7:8k] of `out_vtext` and 0x00 in every other byte, at least one
of them. The longest string is the 15 characters of HIGH_RES, and the longest NUMERIC one has 7, with the sign. The unit
string likewise, 4 characters at most, which "kohm" and "mohm" alone have. -/
def Obligations.TextPortsArePackedAndPadded : Prop :=
  ∀ (i : Instr) (s : State) (m : Measurement), s.resetSeen = true → resultOf i = .meas m → ∃ t, exec i s = .next t ∧
    t.out.vlen.toNat = (valueText m i.operands).length ∧ t.out.vlen.toNat ≤ 15 ∧
    (m.kind = .highRes ↔ t.out.vlen.toNat = 15) ∧
    (m.kind = .numeric → t.out.vlen.toNat = if m.neg then 7 else 6) ∧
    (∀ k : Fin 16, valueChar t.out.vtext k =
      if k.val < t.out.vlen.toNat then (valueText m i.operands).getD k.val 0 else 0x00) ∧
    t.out.ulen.toNat = (unitText m.unit).length ∧ t.out.ulen.toNat ≤ 4 ∧
    (t.out.ulen.toNat = 4 ↔ m.unit = .uKohm ∨ m.unit = .uMohm) ∧
    (∀ k : Fin 4, busByte t.out.utext k.val =
      if k.val < t.out.ulen.toNat then (unitText m.unit).getD k.val 0 else 0x00)

/-- R142, R143: the literal strings, letter by letter, and the empty one. -/
def Obligations.LiteralStringsAreExact : Prop :=
  ∀ (m : Measurement) (o : Operands),
    (m.kind = .error → valueText m o = ascii "error") ∧
    (m.kind = .outOfRange → valueText m o = ascii "out of range") ∧
    (m.kind = .open_ → valueText m o = ascii "open") ∧
    (m.kind = .highRes → valueText m o = ascii "high resistance") ∧
    (m.kind = .noDefault → valueText m o = [])

/-- R83: the unit codes 0..16, their strings, letter by letter, and the bytes of those, written out from the table; no
measurement shows one of the codes 17..31. -/
def Obligations.UnitCodesAndStringsAreExact : Prop :=
  (∀ u : UnitCode, u ∈ allUnits) ∧
  allUnits.map (fun u => ((unitBits u).toNat, unitText u)) =
    [(0, ascii ""), (1, ascii "V"), (2, ascii "mV"), (3, ascii "ohm"), (4, ascii "kohm"), (5, ascii "mohm"),
     (6, ascii "nF"), (7, ascii "uF"), (8, ascii "mF"), (9, ascii "C"), (10, ascii "F"), (11, ascii "uA"),
     (12, ascii "mA"), (13, ascii "A"), (14, ascii "Hz"), (15, ascii "kHz"), (16, ascii "MHz")] ∧
  allUnits.map unitText =
    [[], [0x56], [0x6D, 0x56], [0x6F, 0x68, 0x6D], [0x6B, 0x6F, 0x68, 0x6D], [0x6D, 0x6F, 0x68, 0x6D], [0x6E, 0x46],
     [0x75, 0x46], [0x6D, 0x46], [0x43], [0x46], [0x75, 0x41], [0x6D, 0x41], [0x41], [0x48, 0x7A], [0x6B, 0x48, 0x7A],
     [0x4D, 0x48, 0x7A]] ∧
  ∀ (i : Instr) (s : State) (ty : MsgType), s.resetSeen = true → i.msgType = some ty →
    ∃ t, exec i s = .next t ∧ t.out.unit.toNat ≤ 16

/-- The frame of every instruction: the edges to come and whether a reset has come are as before; after a reset so are the
draws and, for an unknown type, every measurement field. Before one, all of OUT is BeforeTheFirstResetAFrameLeavesAFreeOut's. UTDEC has no memory to change, and the frames to come are not written (R14, R50, R23). -/
def Obligations.NothingButOutChanges : Prop :=
  ∀ (i : Instr) (s t : State), exec i s = .next t →
    t.inputs = s.inputs ∧ t.resetSeen = s.resetSeen ∧
    (s.resetSeen = true → t.draws = s.draws ∧ (i.msgType = none → fields t.out = fields s.out))

/-- R24, R55: the OUT of a measured frame is a function of the frame alone. Whatever OUT held, it is the same after
the same frame. -/
def Obligations.MeasuredFrameForgetsOut : Prop :=
  ∀ f : Frame, isMeasured f = true →
    ∃ w : Out, ∀ s : State, s.resetSeen = true → exec (decodeFrame f) s = .next { s with out := w }

/-! ## The range table -/

/-- R131: the model's RangeTable meets every constraint. -/
def Obligations.RangeTableMeetsItsConstraints : Prop := MeetsR131 rangeTable

/-- 92_eei_decisions.md D8: the model quantifies over every table that meets R131. Whatever the free choice is, the
admitted table meets R131, and a choice that meets it is admitted unchanged (the model's way to do so is log 5). -/
def Obligations.ExactlyTheConstrainedTablesAreAdmitted : Prop :=
  (∀ c : Table, MeetsR131 (admitted c)) ∧ ∀ c : Table, MeetsR131 c → admitted c = c

/-! ## Invariants and histories -/

/-- The invariant holds at reset and at power-on, with any well driven edges to come, and at reset OUT is coherent (R33). -/
def Obligations.ResetMeetsTheInvariant : Prop :=
  OutInv State.reset.out ∧ Inv State.reset ∧
  ∀ es : List EdgeInput, (∀ e ∈ es, WellDriven e) → Inv { State.reset with inputs := es } ∧ Inv (State.powerOn es)

/-- Every edge keeps the invariant, and a reset once seen stays seen. Once one is, the strobes are never both 1, no reserved code is shown, the type code is that of
the raw byte, and the ten measurement fields agree with each other, the value string being the one the coded fields
stand for. -/
def Obligations.EveryEdgeKeepsTheInvariant : Prop :=
  ∀ s t : State, Inv s → step s = .next t → Inv t ∧ t.resetSeen = (s.resetSeen || s.ports.rst)

/-- R234: after any edge that keeps R266, whatever OUT held, the strobes are not both 1, and each is 1 only for the
frame of its own edge. -/
def Obligations.StrobesAreNeverBothOne : Prop :=
  ∀ s : State, WellDriven s.ports → s.resetSeen = true ∨ s.ports.rst = true → ∃ t, step s = .next t ∧
    ¬ (t.out.valid = true ∧ t.out.diag = true) ∧
    (t.out.valid = true ∨ t.out.diag = true ↔ s.ports.rst = false ∧ s.ports.inValid = true)

/-- R25, R57, R264, R265, R267, R268: after any history of edges that keep R266 and that starts after a reset or holds one
(R261), one step for each, OUT is a function of the last frames accepted since the last reset. The strobes are those of the last edge, the type fields those of the
last accepted frame, and the measurement fields those of the last measured frame; where there is no such frame, they
are the reset values, or without a reset what they were. -/
def Obligations.OutShowsTheLastFramesOfItsHistory : Prop :=
  ∀ (s : State) (h : List EdgeInput), (∀ e ∈ h, WellDriven e) →
    s.resetSeen = true ∨ h.any (fun e => e.rst) = true →
    ∃ t : State, Sys2Proof.core.run h.length { s with inputs := h } = .next t ∧
      t.inputs = [] ∧ t.resetSeen = true ∧ (s.resetSeen = true → t.draws = s.draws) ∧
      (∀ e, h.getLast? = some e →
        (t.out.valid = true ↔ ∃ f, acceptedFrame e = some f ∧ isMeasured f = true) ∧
        (t.out.diag = true ↔ ∃ f, acceptedFrame e = some f ∧ isMeasured f = false)) ∧
      (∀ f, lastAccepted h = some f →
        t.out.typeRaw = frameByte f 6 ∧ t.out.typ = typecode (frameByte f 6)) ∧
      (lastAccepted h = none →
        t.out.typeRaw = (if h.any (fun e => e.rst) then 0 else s.out.typeRaw) ∧
        t.out.typ = (if h.any (fun e => e.rst) then 0 else s.out.typ)) ∧
      (∀ f, lastMeasured h = some f → fields t.out = fieldsAfter f (fields s.out)) ∧
      (lastMeasured h = none →
        fields t.out = if h.any (fun e => e.rst) then resetFields else fields s.out)

/-- The source's three worked examples as 95_test_vectors.md E1 to E3 give them, one edge after reset. -/
def Obligations.WorkedExamplesOfTheSource : Prop :=
  step { State.reset with inputs := [presentFrame 0x3030353031323534333231] } = .next
    { State.reset with
      out := { valid := true, diag := false, typ := 1, typeRaw := 0x31, kind := 0, neg := true, dp := 2, unit := 1
               digits := 0x0504030201, digitErr := false, vtext := 0x0000000000000000003534332E32312D, vlen := 7
               utext := 0x00000056, ulen := 1 } } ∧
  step { State.reset with inputs := [presentFrame 0x3030303034313030353030] } = .next
    { State.reset with
      out := { valid := true, diag := false, typ := 4, typeRaw := 0x34, kind := 0, neg := false, dp := 3, unit := 3
               digits := 0x0000050000, digitErr := false, vtext := 0x0000000000000000000030302E353030, vlen := 6
               utext := 0x006D686F, ulen := 3 } } ∧
  step { State.reset with inputs := [presentFrame 0x303030303530303030303A] } = .next
    { State.reset with
      out := { valid := true, diag := false, typ := 5, typeRaw := 0x35, kind := 2, neg := false, dp := 0, unit := 0
               digits := 0x000000000A, digitErr := false, vtext := 0x0000000065676E617220666F2074756F, vlen := 12
               utext := 0x00000000, ulen := 0 } }
end

