-- ==== Sys2Proof/Laws/State.lean ====
section
/-! SUPPORT. One lemma per field per update of State and of OUT, each true by rfl, so that no proof unfolds a record
update. -/

namespace Sys2Proof.Machine

/-! ## State -/

@[simp] theorem setOut_out (s : State) (r : Out) : (s.setOut r).out = r := rfl
@[simp] theorem setOut_inputs (s : State) (r : Out) : (s.setOut r).inputs = s.inputs := rfl
@[simp] theorem setOut_draws (s : State) (r : Out) : (s.setOut r).draws = s.draws := rfl
@[simp] theorem setOut_resetSeen (s : State) (r : Out) : (s.setOut r).resetSeen = s.resetSeen := rfl
@[simp] theorem setOut_setOut (s : State) (r q : Out) : (s.setOut r).setOut q = s.setOut q := rfl
@[simp] theorem setOut_self (s : State) : s.setOut s.out = s := rfl
@[simp] theorem dropPorts_out (s : State) : s.dropPorts.out = s.out := rfl
@[simp] theorem dropPorts_inputs (s : State) : s.dropPorts.inputs = s.inputs.tail := rfl
@[simp] theorem dropPorts_draws (s : State) : s.dropPorts.draws = s.draws := rfl
@[simp] theorem dropPorts_resetSeen (s : State) : s.dropPorts.resetSeen = s.resetSeen := rfl
@[simp] theorem drawOut_out (s : State) : s.drawOut.out = Config.freeOut s.draws := rfl
@[simp] theorem drawOut_inputs (s : State) : s.drawOut.inputs = s.inputs := rfl
@[simp] theorem drawOut_draws (s : State) : s.drawOut.draws = s.draws + 1 := rfl
@[simp] theorem drawOut_resetSeen (s : State) : s.drawOut.resetSeen = s.resetSeen := rfl
@[simp] theorem resetEdge_out (s : State) : (resetEdge s).out = Out.reset := rfl
@[simp] theorem resetEdge_inputs (s : State) : (resetEdge s).inputs = s.inputs := rfl
@[simp] theorem resetEdge_draws (s : State) : (resetEdge s).draws = s.draws := rfl
@[simp] theorem resetEdge_resetSeen (s : State) : (resetEdge s).resetSeen = true := rfl
@[simp] theorem reset_out : State.reset.out = Out.reset := rfl
@[simp] theorem reset_inputs : State.reset.inputs = [] := rfl
@[simp] theorem reset_draws : State.reset.draws = 0 := rfl
@[simp] theorem reset_resetSeen : State.reset.resetSeen = true := rfl
@[simp] theorem powerOn_out (es : List EdgeInput) : (State.powerOn es).out = Config.freeOut 0 := rfl
@[simp] theorem powerOn_inputs (es : List EdgeInput) : (State.powerOn es).inputs = es := rfl
@[simp] theorem powerOn_draws (es : List EdgeInput) : (State.powerOn es).draws = 1 := rfl
@[simp] theorem powerOn_resetSeen (es : List EdgeInput) : (State.powerOn es).resetSeen = false := rfl
@[simp] theorem withFetchWord_out (s : State) (n w : Nat) : (s.withFetchWord n w).out = s.out := rfl
@[simp] theorem withFetchWord_draws (s : State) (n w : Nat) : (s.withFetchWord n w).draws = s.draws := rfl
@[simp] theorem withFetchWord_resetSeen (s : State) (n w : Nat) : (s.withFetchWord n w).resetSeen = s.resetSeen := rfl
@[simp] theorem withFetchWord_inputs (s : State) (n w : Nat) :
    (s.withFetchWord n w).inputs = presentFrame (tableFrame n w) :: s.inputs := rfl

/-! ## The update of OUT, before the first reset and after it -/

theorem updateOut_of_seen {s : State} (h : s.resetSeen = true) (r : Out) : s.updateOut r = s.setOut r := by
  simp only [State.updateOut, h]

theorem updateOut_of_unseen {s : State} (h : s.resetSeen = false) (r : Out) : s.updateOut r = s.drawOut := by
  simp only [State.updateOut, h]

@[simp] theorem updateOut_inputs (s : State) (r : Out) : (s.updateOut r).inputs = s.inputs := by
  unfold State.updateOut; split <;> rfl

@[simp] theorem updateOut_resetSeen (s : State) (r : Out) : (s.updateOut r).resetSeen = s.resetSeen := by
  unfold State.updateOut; split <;> rfl

/-! ## The ports -/

theorem ports_of_inputs {s : State} {e : EdgeInput} {es : List EdgeInput} (h : s.inputs = e :: es) :
    s.ports = e := by simp [State.ports, h]

theorem ports_of_nil {s : State} (h : s.inputs = []) : s.ports = quietPorts := by simp [State.ports, h]

theorem dropPorts_of_inputs {s : State} {e : EdgeInput} {es : List EdgeInput} (h : s.inputs = e :: es) :
    s.dropPorts = { s with inputs := es } := by simp [State.dropPorts, h]

/-! ## OUT -/

@[simp] theorem loadType_typ (r : Out) (b : Byte) : (r.loadType b).typ = typecode b := rfl
@[simp] theorem loadType_typeRaw (r : Out) (b : Byte) : (r.loadType b).typeRaw = b := rfl
@[simp] theorem loadType_fields (r : Out) (b : Byte) : Safety.fields (r.loadType b) = Safety.fields r := rfl
@[simp] theorem loadDiag_valid (r : Out) : r.loadDiag.valid = false := rfl
@[simp] theorem loadDiag_diag (r : Out) : r.loadDiag.diag = true := rfl
@[simp] theorem loadDiag_typ (r : Out) : r.loadDiag.typ = r.typ := rfl
@[simp] theorem loadDiag_typeRaw (r : Out) : r.loadDiag.typeRaw = r.typeRaw := rfl
@[simp] theorem loadDiag_fields (r : Out) : Safety.fields r.loadDiag = Safety.fields r := rfl

variable (r : Out) (m : Measurement) (o : Operands)

@[simp] theorem loadMeas_valid : (r.loadMeas m o).valid = true := rfl
@[simp] theorem loadMeas_diag : (r.loadMeas m o).diag = false := rfl
@[simp] theorem loadMeas_typ : (r.loadMeas m o).typ = r.typ := rfl
@[simp] theorem loadMeas_typeRaw : (r.loadMeas m o).typeRaw = r.typeRaw := rfl
@[simp] theorem loadMeas_kind : (r.loadMeas m o).kind = kindBits m.kind := rfl
@[simp] theorem loadMeas_neg : (r.loadMeas m o).neg = m.neg := rfl
@[simp] theorem loadMeas_dp : (r.loadMeas m o).dp = dpBits m.dp := rfl
@[simp] theorem loadMeas_unit : (r.loadMeas m o).unit = unitBits m.unit := rfl
@[simp] theorem loadMeas_digits : (r.loadMeas m o).digits = m.digits := rfl
@[simp] theorem loadMeas_digitErr : (r.loadMeas m o).digitErr = m.digitErr := rfl
@[simp] theorem loadMeas_vtext : (r.loadMeas m o).vtext = packBytes 128 (valueText m o) := rfl
@[simp] theorem loadMeas_vlen : (r.loadMeas m o).vlen = BitVec.ofNat 5 (valueText m o).length := rfl
@[simp] theorem loadMeas_utext : (r.loadMeas m o).utext = packBytes 32 (unitText m.unit) := rfl
@[simp] theorem loadMeas_ulen : (r.loadMeas m o).ulen = BitVec.ofNat 3 (unitText m.unit).length := rfl
@[simp] theorem loadMeas_fields :
    Safety.fields (r.loadMeas m o) = Safety.shown m (valueText m o) (unitText m.unit) := rfl

/-! ## Measurement constructors -/

variable (t : MsgType) (p : PrintPattern) (u : UnitCode) (k : Kind)

@[simp] theorem num_kind : (num t p u o).kind = .numeric := rfl
@[simp] theorem num_neg : (num t p u o).neg = negFlag t o := rfl
@[simp] theorem num_dp : (num t p u o).dp = p := rfl
@[simp] theorem num_unit : (num t p u o).unit = u := rfl
@[simp] theorem num_digits : (num t p u o).digits = digitLanes o := rfl
@[simp] theorem num_digitErr : (num t p u o).digitErr = digitAboveNine o := rfl
@[simp] theorem only_kind : (only k u o).kind = k := rfl
@[simp] theorem only_neg : (only k u o).neg = false := rfl
@[simp] theorem only_dp : (only k u o).dp = 0 := rfl
@[simp] theorem only_unit : (only k u o).unit = u := rfl
@[simp] theorem only_digits : (only k u o).digits = digitLanes o := rfl
@[simp] theorem only_digitErr : (only k u o).digitErr = false := rfl

end Sys2Proof.Machine
end

