-- ==== Sys2Proof/Laws/Lane.lean ====
section
/-! SUPPORT. Lanes, the classifier and the table of byte 6, each said once over bytes: the tests of R123, `classify`
and `typecode` by the byte they read. A fact about one byte is settled by its 256 values. -/

namespace Sys2Proof

/-- The subtraction of R120 undone: the character of a lane is its byte (R141). -/
@[simp] theorem lane_add_base (b : Byte) : lane b + 0x30 = b := by
  simp [lane, base]

theorem lane_injective {a b : Byte} (h : lane a = lane b) : a = b := by
  rw [← lane_add_base a, ← lane_add_base b, h]

/-- The lane test against 10 is the byte test against 0x3A (R124). -/
theorem lane_eq_ten (b : Byte) : lane b = 10 ↔ b = 0x3A := by
  revert b; decide

/-- The lane test against 0 is the byte test against 0x30. -/
theorem lane_eq_zero (b : Byte) : lane b = 0 ↔ b = 0x30 := by
  revert b; decide

/-- The sign value 4 as a byte (R125). -/
theorem lane_eq_four (b : Byte) : lane b = 4 ↔ b = 0x34 := by
  revert b; decide

/-- The sign value 5 as a byte (R125). -/
theorem lane_eq_five (b : Byte) : lane b = 5 ↔ b = 0x35 := by
  revert b; decide

/-- The selector range test as a byte test (R123, R130). -/
theorem lane_lt_eight (b : Byte) : (lane b).toNat < 8 ↔ 0x30 ≤ b.toNat ∧ b.toNat ≤ 0x37 := by
  revert b; decide

/-- The digit range test as a byte test (R123, R135). -/
theorem nine_lt_lane (b : Byte) : 9 < (lane b).toNat ↔ b.toNat < 0x30 ∨ 0x39 < b.toNat := by
  revert b; decide

/-- The classifier answers a type exactly on that type's byte (R80, R86). -/
theorem classify_eq_some (b : Byte) (t : MsgType) : classify b = some t ↔ b = typeByte t := by
  cases t <;> (revert b; decide)

/-- The classifier answers no type exactly outside 0x31..0x3D (R103). -/
theorem classify_eq_none (b : Byte) : classify b = none ↔ unknownTypeByte b = true := by
  revert b; decide

@[simp] theorem classify_typeByte (t : MsgType) : classify (typeByte t) = some t :=
  (classify_eq_some _ t).2 rfl

/-- The type code of every byte (R102). -/
theorem typecode_toNat (b : Byte) :
    (Machine.typecode b).toNat = if 0x31 ≤ b.toNat ∧ b.toNat ≤ 0x3D then b.toNat - 0x30 else 0 := by
  revert b; decide

end Sys2Proof
end

