-- ==== Sys2Proof/Laws/Pack.lean ====
section
/-! SUPPORT. The bus packing of R52, said once: slicing byte k out of packed bytes gives the k-th of them, and 0x00
above the last. -/

namespace Sys2Proof

/-- Bit n of packed bytes is bit n mod 8 of byte n / 8, inside the bus. -/
theorem getLsbD_packBytes (w : Nat) (bs : List Byte) (n : Nat) :
    (packBytes w bs).getLsbD n = (decide (n < w) && (bs.getD (n / 8) 0).getLsbD (n % 8)) := by
  induction bs generalizing n with
  | nil => simp [packBytes]
  | cons b bs ih =>
    simp only [packBytes, BitVec.getLsbD_or, BitVec.getLsbD_shiftLeft, BitVec.getLsbD_setWidth, ih]
    by_cases hn : n < 8
    · have h0 : n / 8 = 0 := by omega
      have h1 : n % 8 = n := by omega
      simp [hn, h0, h1]
    · have h0 : n / 8 = (n - 8) / 8 + 1 := by omega
      have h1 : (n - 8) % 8 = n % 8 := by omega
      have hz : b.getLsbD n = false := BitVec.getLsbD_of_ge b n (by omega)
      by_cases hw : n < w
      · have hw' : n - 8 < w := by omega
        simp [hn, h0, h1, hz, hw, hw']
      · simp [hn, hz, hw]

/-- Byte k of packed bytes (R52, R144). -/
theorem extract_packBytes (w : Nat) (bs : List Byte) (k : Nat) (h : 8 * k + 8 ≤ w) :
    (packBytes w bs).extractLsb' (8 * k) 8 = bs.getD k 0 := by
  apply BitVec.eq_of_getLsbD_eq
  intro n hn
  have h0 : (8 * k + n) / 8 = k := by omega
  have h1 : (8 * k + n) % 8 = n := by omega
  have h2 : 8 * k + n < w := by omega
  rw [BitVec.getLsbD_extractLsb', getLsbD_packBytes, h0, h1]
  simp only [hn, h2, decide_true, Bool.true_and]

@[simp] theorem busByte_packBytes (w : Nat) (bs : List Byte) (k : Nat) (h : 8 * k + 8 ≤ w) :
    Safety.busByte (packBytes w bs) k = bs.getD k 0 := extract_packBytes w bs k h

/-- Two values of one bus are equal when their bytes are. -/
theorem eq_of_busBytes {n : Nat} (a b : BitVec (8 * n)) (h : ∀ k < n, Safety.busByte a k = Safety.busByte b k) :
    a = b := by
  apply BitVec.eq_of_getLsbD_eq
  intro j hj
  have hb := congrArg (fun v : Byte => v.getLsbD (j % 8)) (h (j / 8) (by omega))
  have hmod : j % 8 < 8 := by omega
  have hdiv : 8 * (j / 8) + j % 8 = j := by omega
  simpa [Safety.busByte, BitVec.getLsbD_extractLsb', hmod, hdiv] using hb

/-- `{d4, d3, d2, d1, d0}` is the packing of the five lanes, d0 lowest (R52, R121). -/
theorem append_lanes (a b c d e : Byte) : e ++ d ++ c ++ b ++ a = packBytes 40 [a, b, c, d, e] := by
  apply BitVec.eq_of_getLsbD_eq
  intro j hj
  rw [getLsbD_packBytes]
  simp only [BitVec.getLsbD_append]
  have hj' : j < 40 := by simpa using hj
  rcases (by omega : j < 8 ∨ (8 ≤ j ∧ j < 16) ∨ (16 ≤ j ∧ j < 24) ∨ (24 ≤ j ∧ j < 32) ∨ 32 ≤ j) with h | h | h | h | h
  · have h0 : j / 8 = 0 := by omega
    have h1 : j % 8 = j := by omega
    simp [h0, h1, h, hj']
  · have h0 : j / 8 = 1 := by omega
    have h1 : j % 8 = j - 8 := by omega
    have h2 : j - 8 < 8 := by omega
    have h3 : ¬ j < 8 := by omega
    simp [h0, h1, h2, h3, hj']
  · have h0 : j / 8 = 2 := by omega
    have h1 : j % 8 = j - 8 - 8 := by omega
    have h2 : ¬ j - 8 < 8 := by omega
    have h3 : ¬ j < 8 := by omega
    have h4 : j - 8 - 8 < 8 := by omega
    simp [h0, h1, h2, h3, h4, hj']
  · have h0 : j / 8 = 3 := by omega
    have h1 : j % 8 = j - 8 - 8 - 8 := by omega
    have h2 : ¬ j - 8 < 8 := by omega
    have h3 : ¬ j < 8 := by omega
    have h4 : ¬ j - 8 - 8 < 8 := by omega
    have h5 : j - 8 - 8 - 8 < 8 := by omega
    simp [h0, h1, h2, h3, h4, h5, hj']
  · have h0 : j / 8 = 4 := by omega
    have h1 : j % 8 = j - 8 - 8 - 8 - 8 := by omega
    have h2 : ¬ j - 8 < 8 := by omega
    have h3 : ¬ j < 8 := by omega
    have h4 : ¬ j - 8 - 8 < 8 := by omega
    have h5 : ¬ j - 8 - 8 - 8 < 8 := by omega
    simp [h0, h1, h2, h3, h4, h5, hj']

/-- `out_digits` as the packing of the bytes less BASE. -/
theorem digitLanes_eq_pack (o : Operands) :
    Machine.digitLanes o = packBytes 40 [o.f0 - 0x30, o.f1 - 0x30, o.f2 - 0x30, o.f3 - 0x30, o.f4 - 0x30] :=
  append_lanes (lane o.f0) (lane o.f1) (lane o.f2) (lane o.f3) (lane o.f4)

/-! ## The frame on the bus -/

/-- Byte k of an encoded instruction's frame is the k-th encoded byte. -/
theorem frameByte_encodeFrame (i : Instr) (k : Fin 11) : frameByte (encodeFrame i) k = (encode i).getD k.val 0 :=
  extract_packBytes 88 (encode i) k.val (by omega)

/-- The bus decoder is the byte decoder on the bus's eleven bytes, which it never rejects. -/
theorem decode_frameBytes (f : Frame) : decode (frameBytes f) = .ok (decodeFrame f) := rfl

end Sys2Proof
end

