-- ==== Sys2Proof/Laws/Text.lean ====
section
/-! SUPPORT. Value and unit strings, said once: their lengths, and that they fit their ports (R144 to R146). -/

namespace Sys2Proof.Machine

/-- A NUMERIC string has five digit characters, a point, and a sign when negative (R146). -/
@[simp] theorem numericText_length (neg : Bool) (p : PrintPattern) (cs : List Byte) (h : cs.length = 5) :
    (numericText neg p cs).length = 6 + neg.toNat := by
  have hp : p.val ≤ 5 := by omega
  cases neg <;> simp [numericText, h] <;> omega

@[simp] theorem digitChars_length (o : Operands) : (digitChars o).length = 5 := rfl

/-- The longest value string is "high resistance", 15 characters (R144). -/
theorem valueText_length_le (m : Measurement) (o : Operands) : (valueText m o).length ≤ 15 := by
  unfold valueText
  cases m.kind with
  | numeric => simp only [numericText_length _ _ _ (digitChars_length o)]; cases m.neg <;> decide
  | error => simp [textError]
  | outOfRange => simp [textOutOfRange]
  | open_ => simp [textOpen]
  | highRes => simp [textHighRes]
  | noDefault => simp

/-- The longest unit strings have 4 characters (R145). -/
theorem unitText_length_le (u : UnitCode) : (unitText u).length ≤ 4 := by
  cases u <;> decide

/-- `out_vlen` holds the length exactly. -/
theorem valueText_vlen (m : Measurement) (o : Operands) :
    (BitVec.ofNat 5 (valueText m o).length).toNat = (valueText m o).length := by
  have := valueText_length_le m o
  simp only [BitVec.toNat_ofNat]
  omega

/-- `out_ulen` holds the length exactly. -/
theorem unitText_ulen (u : UnitCode) : (BitVec.ofNat 3 (unitText u).length).toNat = (unitText u).length := by
  have := unitText_length_le u
  simp only [BitVec.toNat_ofNat]
  omega

/-- Reading the characters of a packed string gives it back (R144). -/
theorem textChars_packBytes (s : List Byte) (h : s.length ≤ 16) :
    Safety.textChars (packBytes 128 s) s.length = s := by
  apply List.ext_getElem
  · simp [Safety.textChars]
  · intro k h1 h2
    simp only [Safety.textChars, List.getElem_map, List.getElem_range]
    rw [busByte_packBytes _ _ _ (by omega)]
    simp [h2]

/-- The lanes on `out_digits` give back the digit characters (R141). -/
theorem laneChars_digitLanes (o : Operands) : Safety.laneChars (digitLanes o) = digitChars o := by
  have hb : ∀ k : Fin 5, Safety.digitLane (digitLanes o) k =
      [o.f0 - 0x30, o.f1 - 0x30, o.f2 - 0x30, o.f3 - 0x30, o.f4 - 0x30].getD k.val 0 := fun k => by
    rw [digitLanes_eq_pack]
    exact busByte_packBytes 40 _ k.val (by omega)
  simp [Safety.laneChars, digitChars, hb]

/-- Lane k on `out_digits` is the lane of digit byte k (R121). -/
theorem digitLane_digitLanes (o : Operands) (k : Fin 5) :
    Safety.digitLane (digitLanes o) k = lane ((digitChars o).getD k.val 0) := by
  rw [digitLanes_eq_pack]
  refine (busByte_packBytes 40 _ k.val (by omega)).trans ?_
  match k with
  | 0 => rfl
  | 1 => rfl
  | 2 => rfl
  | 3 => rfl
  | 4 => rfl

end Sys2Proof.Machine
end

