-- ==== Sys2Proof/Laws/Range.lean ====
section
/-! SUPPORT. The range multiplexer and the shared measurement constructors, each said once. -/

namespace Sys2Proof.Machine

open Sys2Proof.Safety

/-- A selector byte 0x30 + k reads entry k (R123, R130). -/
theorem range_of_selByte (t : MsgType) (o : Operands) (k : Selector) (h : o.f5 = selByte k) :
    range t o = rangeTable t k := by
  have hk : selector o = some k := by
    unfold selector sel
    rw [h]
    clear h
    revert k
    decide
  simp only [range, hk]

/-- Any other selector byte is UNMAPPED for every type (R132). -/
theorem range_of_outside (t : MsgType) (o : Operands) (h : selectorOutside o) : range t o = none := by
  have hn : ¬ (sel o).toNat < 8 := by
    have := lane_lt_eight o.f5
    simp only [selectorOutside] at h
    unfold sel
    omega
  simp only [range, selector, hn, dite_false]

/-- Every selector byte is 0x30 + k for one k, or outside. -/
theorem selByte_or_outside (o : Operands) : (∃ k, o.f5 = selByte k) ∨ selectorOutside o := by
  have hall : ∀ b : Byte, (∃ k, b = selByte k) ∨ (b.toNat < 0x30 ∨ 0x37 < b.toNat) := by decide
  exact hall o.f5

/-- The digit check over lanes is the one over bytes (R123, R135). -/
theorem digitAboveNine_eq (o : Operands) : digitAboveNine o = anyNotDigit o := by
  have hb : ∀ b : Byte, aboveNine (lane b) = notDigit b := by decide
  simp only [digitAboveNine, anyNotDigit, d0, d1, d2, d3, d4, hb]

/-- The sentinel is byte 0x3A at index 0 (R124). -/
theorem sent_eq_true (o : Operands) : sent o = true ↔ o.f0 = 0x3A := by
  simp only [sent, sentinelLane, d0, beq_iff_eq, lane_eq_ten]

theorem sent_of_eq {o : Operands} (h : o.f0 = 0x3A) : sent o = true := (sent_eq_true o).2 h

theorem sent_of_ne {o : Operands} (h : o.f0 ≠ 0x3A) : sent o = false := by
  rw [← Bool.not_eq_true, sent_eq_true]; exact h

/-- Selector 0 is byte 0x30 at index 5 (R179). -/
theorem sel_eq_zero (o : Operands) : sel o = 0 ↔ o.f5 = 0x30 := lane_eq_zero o.f5

/-! ## The table -/

theorem mem_allUnits (u : UnitCode) : u ∈ allUnits := by cases u <;> decide

/-- A fitted unit is in its family. -/
theorem fitUnit_mem (t : MsgType) (u : UnitCode) : fitUnit t u ∈ unitFamily t := by
  cases t <;> cases u <;> decide

/-- A unit of the family is left as it is. -/
theorem fitUnit_of_mem {t : MsgType} {u : UnitCode} (h : u ∈ unitFamily t) : fitUnit t u = u := by
  unfold fitUnit; rw [if_pos (by simpa using h)]

theorem fitEntry_mem (t : MsgType) (e : Option (PrintPattern × UnitCode)) : (fitEntry t e).2 ∈ unitFamily t := by
  cases e <;> exact fitUnit_mem t _

/-- The two fixed entries have units of their families. -/
theorem fixedEntry_mem {t : MsgType} {s : Selector} {e : PrintPattern × UnitCode} (h : fixedEntry t s = some e) :
    e.2 ∈ unitFamily t := by
  unfold fixedEntry at h
  split at h
  · rename_i hts; cases h; rw [hts.1]; decide
  · split at h
    · rename_i hts; cases h; rw [hts.1]; decide
    · cases h

/-- What an admitted entry can be: UNMAPPED, or a unit of the family (R131). -/
theorem admitted_cases (c : Table) (t : MsgType) (s : Selector) :
    admitted c t s = none ∨ ∃ p, ∃ u ∈ unitFamily t, admitted c t s = some (p, u) := by
  unfold admitted
  cases hf : fixedEntry t s with
  | some e => exact .inr ⟨e.1, e.2, fixedEntry_mem hf, rfl⟩
  | none =>
    simp only
    split
    · exact .inr ⟨_, _, fitEntry_mem t (c t s), rfl⟩
    · exact .inl rfl

/-! ## The measurement constructors -/

/-- The one lemma on `rangedOr`: a mapped entry gives NUM, UNMAPPED gives the other measurement. -/
theorem rangedOr_cases (m : Measurement) (t : MsgType) (o : Operands) :
    (∃ p u, range t o = some (p, u) ∧ rangedOr m t o = num t p u o) ∨
    (range t o = none ∧ rangedOr m t o = m) := by
  unfold rangedOr
  cases h : range t o with
  | none => exact .inr ⟨rfl, rfl⟩
  | some e => exact .inl ⟨e.1, e.2, rfl, rfl⟩

theorem ranged_of_none {t : MsgType} {o : Operands} (h : range t o = none) :
    ranged t o = only .error .uNone o := by simp only [ranged, rangedOr, h]

theorem ranged_of_some {t : MsgType} {o : Operands} {p : PrintPattern} {u : UnitCode}
    (h : range t o = some (p, u)) : ranged t o = num t p u o := by simp only [ranged, rangedOr, h]

end Sys2Proof.Machine
end

