-- ==== Sys2Proof/Laws/Exec.lean ====
section
/-! SUPPORT. What an accepted frame does, said once for all fourteen instructions, and what a result can be. -/

namespace Sys2Proof.Machine

open Sys2Proof.Safety

/-- Every instruction is one `accept` of its byte 6, its operands and its result. -/
theorem exec_eq_accept (i : Instr) (s : State) :
    exec i s = .next (accept (opcodeByte i) i.operands (resultOf i) s) := by
  cases i <;> rfl

/-- Before the first reset an accepted frame leaves a free value in OUT, whatever its result (R261). -/
theorem accept_of_unseen {s : State} (h : s.resetSeen = false) (f6 : Byte) (o : Operands) (res : Result) :
    accept f6 o res s = s.drawOut := by
  cases res <;> exact updateOut_of_unseen h _

/-- After it a measurement loads OUT whole. -/
theorem accept_meas {s : State} (h : s.resetSeen = true) (f6 : Byte) (o : Operands) (m : Measurement) :
    accept f6 o (.meas m) s = s.setOut ((s.out.loadType f6).loadMeas m o) := updateOut_of_seen h _

/-- After it a diagnostic loads the strobes and the type fields. -/
theorem accept_diag {s : State} (h : s.resetSeen = true) (f6 : Byte) (o : Operands) (b : Byte) :
    accept f6 o (.diag b) s = s.setOut (s.out.loadType f6).loadDiag := updateOut_of_seen h _

/-- What `accept` can do: leave a free value, load a measurement, or load a diagnostic. -/
theorem accept_cases (f6 : Byte) (o : Operands) (res : Result) (s : State) :
    (s.resetSeen = false ∧ accept f6 o res s = s.drawOut) ∨
    (s.resetSeen = true ∧
      ((∃ m, res = .meas m ∧ accept f6 o res s = s.setOut ((s.out.loadType f6).loadMeas m o)) ∨
       (∃ b, res = .diag b ∧ accept f6 o res s = s.setOut (s.out.loadType f6).loadDiag))) := by
  cases h : s.resetSeen with
  | false => exact .inl ⟨rfl, accept_of_unseen h f6 o res⟩
  | true =>
    refine .inr ⟨rfl, ?_⟩
    cases res with
    | meas m => exact .inl ⟨m, rfl, accept_meas h f6 o m⟩
    | diag b => exact .inr ⟨b, rfl, accept_diag h f6 o b⟩

@[simp] theorem accept_inputs (f6 : Byte) (o : Operands) (res : Result) (s : State) :
    (accept f6 o res s).inputs = s.inputs := by cases res <;> exact updateOut_inputs _ _

@[simp] theorem accept_resetSeen (f6 : Byte) (o : Operands) (res : Result) (s : State) :
    (accept f6 o res s).resetSeen = s.resetSeen := by cases res <;> exact updateOut_resetSeen _ _

theorem accept_draws {s : State} (h : s.resetSeen = true) (f6 : Byte) (o : Operands) (res : Result) :
    (accept f6 o res s).draws = s.draws := by
  cases res <;> simp only [accept_meas h, accept_diag h, setOut_draws]

theorem accept_typ {s : State} (h : s.resetSeen = true) (f6 : Byte) (o : Operands) (res : Result) :
    (accept f6 o res s).out.typ = typecode f6 := by
  cases res <;> simp [accept_meas h, accept_diag h]

theorem accept_typeRaw {s : State} (h : s.resetSeen = true) (f6 : Byte) (o : Operands) (res : Result) :
    (accept f6 o res s).out.typeRaw = f6 := by
  cases res <;> simp [accept_meas h, accept_diag h]

/-- An accepted NUMERIC measurement is the state the handler rules give (R30 case 2, R160). -/
theorem accept_num {s : State} (h : s.resetSeen = true) (t : MsgType) (p : PrintPattern) (u : UnitCode) (o : Operands)
    (f6 : Byte) :
    accept f6 o (.meas (num t p u o)) s = numericState s (typecode f6) f6 o (negFlag t o) p u := by
  simp only [accept_meas h, State.setOut, Out.loadMeas, Out.loadType, numericState, measuredState, num_kind, num_neg, num_dp,
    num_unit, num_digits, num_digitErr, digitAboveNine_eq, digitLanes_eq_pack, pack16, pack4, valueText, numericText,
    digitChars, kindBits, dpBits, charMinus, charPoint]
  rfl

/-- An accepted measurement of another kind is the state the handler rules give (R30 case 2, R160). -/
theorem accept_only {s : State} (h : s.resetSeen = true) (k : Kind) (u : UnitCode) (o : Operands) (f6 : Byte) :
    accept f6 o (.meas (only k u o)) s =
      otherState s (typecode f6) f6 o (kindBits k) u (valueText (only k u o) o) := by
  simp only [accept_meas h, State.setOut, Out.loadMeas, Out.loadType, otherState, measuredState, only_kind, only_neg, only_dp,
    only_unit, only_digits, only_digitErr, digitLanes_eq_pack, pack16, pack4, dpBits]
  rfl

/-- How a measurement came about: a NUMERIC value of a type by `num`, or another kind by `only` (R160). -/
def BuiltBy (t : MsgType) (o : Operands) (m : Measurement) : Prop :=
  (∃ p u, m = num t p u o) ∨ (∃ k u, k ≠ .numeric ∧ m = only k u o)

theorem rangedOr_builtBy {m : Measurement} {t : MsgType} {o : Operands} (h : BuiltBy t o m) :
    BuiltBy t o (rangedOr m t o) := by
  rcases rangedOr_cases m t o with ⟨p, u, _, e⟩ | ⟨_, e⟩
  · exact .inl ⟨p, u, e⟩
  · rw [e]; exact h

theorem only_builtBy (t : MsgType) (o : Operands) (k : Kind) (u : UnitCode) (h : k ≠ .numeric) :
    BuiltBy t o (only k u o) := .inr ⟨k, u, h, rfl⟩

theorem ranged_builtBy (t : MsgType) (o : Operands) : BuiltBy t o (ranged t o) :=
  rangedOr_builtBy (only_builtBy t o _ _ (by decide))

/-- Every instruction of a known type gives a measurement built by `num` or by `only`; an unknown type a
diagnostic. -/
theorem resultOf_cases (i : Instr) :
    (∃ t m, i.msgType = some t ∧ opcodeByte i = typeByte t ∧ resultOf i = .meas m ∧ BuiltBy t i.operands m) ∨
    (∃ b o, i = .unknown b o ∧ resultOf i = .diag b) := by
  have sentOr : ∀ (t : MsgType) (o : Operands) (k : Kind) (u : UnitCode), k ≠ .numeric →
      BuiltBy t o (if sent o then only k u o else ranged t o) := fun t o k u hk => by
    split
    · exact only_builtBy t o k u hk
    · exact ranged_builtBy t o
  cases i with
  | dcv o => exact .inl ⟨.dcv, _, rfl, rfl, rfl, ranged_builtBy _ o⟩
  | acv o => exact .inl ⟨.acv, _, rfl, rfl, rfl, ranged_builtBy _ o⟩
  | mv o => exact .inl ⟨.mv, _, rfl, rfl, rfl, ranged_builtBy _ o⟩
  | ohm o => exact .inl ⟨.ohm, _, rfl, rfl, rfl, sentOr _ o _ _ (by decide)⟩
  | cap o => exact .inl ⟨.cap, _, rfl, rfl, rfl, sentOr _ o _ _ (by decide)⟩
  | tempc o => exact .inl ⟨.tempc, _, rfl, rfl, rfl, sentOr _ o _ _ (by decide)⟩
  | ua o => exact .inl ⟨.ua, _, rfl, rfl, rfl, ranged_builtBy _ o⟩
  | ma o => exact .inl ⟨.ma, _, rfl, rfl, rfl, ranged_builtBy _ o⟩
  | amp o => exact .inl ⟨.amp, _, rfl, rfl, rfl, ranged_builtBy _ o⟩
  | beep o =>
    refine .inl ⟨.beep, _, rfl, rfl, rfl, ?_⟩
    show BuiltBy .beep o (handleBeep o)
    unfold handleBeep
    split
    · exact only_builtBy _ o _ _ (by decide)
    · split
      · exact .inl ⟨_, _, rfl⟩
      · exact only_builtBy _ o _ _ (by decide)
  | diode o => exact .inl ⟨.diode, _, rfl, rfl, rfl, sentOr _ o _ _ (by decide)⟩
  | freq o => exact .inl ⟨.freq, _, rfl, rfl, rfl, rangedOr_builtBy (only_builtBy _ o _ _ (by decide))⟩
  | tempf o => exact .inl ⟨.tempf, _, rfl, rfl, rfl, sentOr _ o _ _ (by decide)⟩
  | unknown b o => exact .inr ⟨b, o, rfl, rfl⟩

/-- A measurement's lanes are the frame's, whatever its kind (R121, R160). -/
theorem builtBy_digits {t : MsgType} {o : Operands} {m : Measurement} (h : BuiltBy t o m) :
    m.digits = digitLanes o := by
  rcases h with ⟨p, u, rfl⟩ | ⟨k, u, _, rfl⟩ <;> rfl

/-- The kind code tells which constructor built a measurement. -/
theorem builtBy_kind {t : MsgType} {o : Operands} {m : Measurement} (h : BuiltBy t o m) :
    (kindBits m.kind = 0 ∧ ∃ p u, m = num t p u o) ∨
    (kindBits m.kind ≠ 0 ∧ ∃ k u, k ≠ .numeric ∧ m = only k u o) := by
  rcases h with ⟨p, u, rfl⟩ | ⟨k, u, hk, rfl⟩
  · exact .inl ⟨rfl, p, u, rfl⟩
  · refine .inr ⟨?_, k, u, hk, rfl⟩
    cases k <;> first | exact absurd rfl hk | exact of_decide_eq_false rfl

/-- The decoder's instruction carries the frame's byte 6 and its operand bytes. -/
theorem decodeFrame_spec (f : Frame) :
    opcodeByte (decodeFrame f) = frameByte f 6 ∧ (decodeFrame f).operands = frameOperands f ∧
    (decodeFrame f).msgType = classify (frameByte f 6) := by
  unfold decodeFrame
  cases h : classify (frameByte f 6) with
  | none => exact ⟨rfl, rfl, rfl⟩
  | some t =>
    have hb := (classify_eq_some _ t).1 h
    rw [hb]
    cases t <;> exact ⟨rfl, rfl, rfl⟩

@[simp] theorem opcodeByte_decodeFrame (f : Frame) : opcodeByte (decodeFrame f) = frameByte f 6 :=
  (decodeFrame_spec f).1

@[simp] theorem operands_decodeFrame (f : Frame) : (decodeFrame f).operands = frameOperands f :=
  (decodeFrame_spec f).2.1

end Sys2Proof.Machine
end

