-- ==== Sys2Proof/Laws/PerInstr.lean ====
section
/-! SUPPORT. Statements made per instruction. EncodedFrame: the encoding of an instruction has the eleven bytes of
FRAME88 (R70, R79), its byte 6 is the instruction's opcode byte, and the classifier reads the instruction's type from
that byte (R80, R86). -/

namespace Sys2Proof.Laws.EncodedFrame

/-- Eleven bytes, byte 6 the opcode byte, which classifies to the instruction's own type. -/
def Statement (i : Instr) : Prop :=
  (encode i).length = 11 ∧ (encode i)[6]? = some (opcodeByte i) ∧
    (i.wf = true → classify (opcodeByte i) = i.msgType)

theorem dcv (o : Operands) : Statement (.dcv o) := ⟨rfl, rfl, fun _ => classify_typeByte .dcv⟩
theorem acv (o : Operands) : Statement (.acv o) := ⟨rfl, rfl, fun _ => classify_typeByte .acv⟩
theorem mv (o : Operands) : Statement (.mv o) := ⟨rfl, rfl, fun _ => classify_typeByte .mv⟩
theorem ohm (o : Operands) : Statement (.ohm o) := ⟨rfl, rfl, fun _ => classify_typeByte .ohm⟩
theorem cap (o : Operands) : Statement (.cap o) := ⟨rfl, rfl, fun _ => classify_typeByte .cap⟩
theorem tempc (o : Operands) : Statement (.tempc o) := ⟨rfl, rfl, fun _ => classify_typeByte .tempc⟩
theorem ua (o : Operands) : Statement (.ua o) := ⟨rfl, rfl, fun _ => classify_typeByte .ua⟩
theorem ma (o : Operands) : Statement (.ma o) := ⟨rfl, rfl, fun _ => classify_typeByte .ma⟩
theorem amp (o : Operands) : Statement (.amp o) := ⟨rfl, rfl, fun _ => classify_typeByte .amp⟩
theorem beep (o : Operands) : Statement (.beep o) := ⟨rfl, rfl, fun _ => classify_typeByte .beep⟩
theorem diode (o : Operands) : Statement (.diode o) := ⟨rfl, rfl, fun _ => classify_typeByte .diode⟩
theorem freq (o : Operands) : Statement (.freq o) := ⟨rfl, rfl, fun _ => classify_typeByte .freq⟩
theorem tempf (o : Operands) : Statement (.tempf o) := ⟨rfl, rfl, fun _ => classify_typeByte .tempf⟩
theorem unknown (f6 : Byte) (o : Operands) : Statement (.unknown f6 o) :=
  ⟨rfl, rfl, fun h => (classify_eq_none f6).2 h⟩

end Sys2Proof.Laws.EncodedFrame
end

