-- ==== Sys2Proof/Laws/Step.lean ====
section
/-! SUPPORT. What one edge can do, said once. -/

namespace Sys2Proof.Machine

open Sys2Proof.Safety

/-- The inversion of the step: the four cases of R30, with an unstable frame as a fifth. -/
theorem step_cases (s : State) :
    (edgeCase s.ports = .reset ∧ step s = .next (resetEdge s.dropPorts)) ∨
    (∃ f, edgeCase s.ports = .frame f ∧
      step s = .next (accept (frameByte f 6) (frameOperands f) (decodeCore f) s.dropPorts)) ∨
    (edgeCase s.ports = .unstable ∧ step s = .next (unstableEdge s.dropPorts)) ∨
    (edgeCase s.ports = .idle ∧ step s = .next (idleEdge s.dropPorts)) := by
  unfold step
  cases h : edgeCase s.ports with
  | reset => exact .inl ⟨rfl, rfl⟩
  | frame f =>
    refine .inr (.inl ⟨f, rfl, ?_⟩)
    simp only [exec_eq_accept, opcodeByte_decodeFrame, operands_decodeFrame]
    rfl
  | unstable => exact .inr (.inr (.inl ⟨rfl, rfl⟩))
  | idle => exact .inr (.inr (.inr ⟨rfl, rfl⟩))

/-- An edge decodes a frame exactly when it is presented, stable, and not reset. -/
theorem edgeCase_eq_frame (e : EdgeInput) (f : Frame) :
    edgeCase e = .frame f ↔ e.rst = false ∧ e.inValid = true ∧ e.frameStable = true ∧ e.inFrame = f := by
  cases hr : e.rst <;> cases hv : e.inValid <;> cases hs : e.frameStable <;> simp [edgeCase, hr, hv, hs]

/-- An edge resets exactly when `rst` is 1 (R30 case 1). -/
theorem edgeCase_eq_reset (e : EdgeInput) : edgeCase e = .reset ↔ e.rst = true := by
  cases hr : e.rst <;> cases hv : e.inValid <;> cases hs : e.frameStable <;> simp [edgeCase, hr, hv, hs]

/-- An edge is idle exactly when neither `rst` nor `in_valid` is 1 (R30 case 4). -/
theorem edgeCase_eq_idle (e : EdgeInput) : edgeCase e = .idle ↔ e.rst = false ∧ e.inValid = false := by
  cases hr : e.rst <;> cases hv : e.inValid <;> cases hs : e.frameStable <;> simp [edgeCase, hr, hv, hs]

/-- Before the first reset every edge without `rst` leaves a free value in OUT (R261). -/
theorem step_of_unseen {s : State} (h : s.resetSeen = false) (hr : s.ports.rst = false) :
    step s = .next s.dropPorts.drawOut := by
  have hd : s.dropPorts.resetSeen = false := h
  rcases step_cases s with ⟨c, e⟩ | ⟨f, c, e⟩ | ⟨c, e⟩ | ⟨c, e⟩
  · rw [(edgeCase_eq_reset _).1 c] at hr
    cases hr
  · rw [e, accept_of_unseen hd]
  · exact e
  · rw [e, idleEdge, updateOut_of_unseen hd]

/-- A reset once seen stays seen. -/
theorem step_resetSeen {s t : State} (h : step s = .next t) : t.resetSeen = (s.ports.rst || s.resetSeen) := by
  rcases step_cases s with ⟨c, e⟩ | ⟨f, c, e⟩ | ⟨c, e⟩ | ⟨c, e⟩ <;> rw [e] at h <;> cases h
  · simp [(edgeCase_eq_reset _).1 c]
  · simp [((edgeCase_eq_frame _ _).1 c).1]
  · have : s.ports.rst = false := by
      cases hr : s.ports.rst with
      | false => rfl
      | true => rw [(edgeCase_eq_reset _).2 hr] at c; cases c
    simp [unstableEdge, this]
  · simp [idleEdge, ((edgeCase_eq_idle _).1 c).1]

/-- One more edge of a run. -/
theorem run_succ (k : Nat) (s t : State) (h : step s = .next t) :
    Sys2Proof.core.run (k + 1) s = Sys2Proof.core.run k t := by
  have hc : Sys2Proof.core.step s = .next t := h
  simp only [Host.Core.run, hc]

/-- A well driven edge is never unstable (R266). -/
theorem edgeCase_ne_unstable {e : EdgeInput} (h : WellDriven e) : edgeCase e ≠ .unstable := by
  cases hr : e.rst <;> cases hv : e.inValid <;> cases hs : e.frameStable <;>
    simp_all [edgeCase, WellDriven]

/-- The ports past the listed edges are well driven, so a well driven list keeps every edge so. -/
theorem ports_wellDriven {s : State} (h : InputsWellDriven s) : WellDriven s.ports := by
  unfold State.ports
  cases hi : s.inputs with
  | nil => exact .inr (.inl rfl)
  | cons e es => exact h e (by simp [hi])

end Sys2Proof.Machine
end

