-- ==== Sys2Proof/Tests/Slice0.lean ====
section
/-! SUPPORT. Tests. Every expected value is the spec's: 95_test_vectors.md (E, P, V, T, S), the tables of R80 and R83,
or, for the well-formedness smoke, R86. The last part gives, for every obligation with hypotheses, a concrete case that
meets them. -/

namespace Sys2Proof.Tests

open Sys2Proof.Machine Sys2Proof.Safety

/-! ## Helpers -/

/-- A frame from the spec's hex spelling, byte 0 first (R77). -/
def bus (bytes : List Byte) : Frame := packBytes 88 bytes

/-- OUT one edge after the frame is presented to a state. -/
def outAfter (s : State) (f : Frame) : Option Out :=
  match step { s with inputs := [presentFrame f] } with
  | .next t => some t.out
  | .fault _ => none
  | .refused _ => none

/-- The columns of 95_test_vectors.md section 4. -/
structure Row where
  typ : Nat
  kind : Nat
  neg : Bool
  dp : Nat
  unit : Nat
  digitErr : Bool
  vtext : List Byte
  utext : List Byte
  deriving DecidableEq, Repr

/-- The columns of OUT. -/
def brief (r : Out) : Row :=
  ⟨r.typ.toNat, r.kind.toNat, r.neg, r.dp.toNat, r.unit.toNat, r.digitErr, textChars r.vtext r.vlen.toNat,
    (List.range r.ulen.toNat).map (busByte r.utext)⟩

/-- The columns for one frame, from reset. -/
def row (bytes : List Byte) : Option Row := (outAfter State.reset (bus bytes)).map brief

/-- The operand bytes of the frame `31 32 33 34 35 f5 . f7 f8 f9 f10`. -/
def digits12345 (f5 f7 f8 f9 f10 : Byte) : Operands := ⟨0x31, 0x32, 0x33, 0x34, 0x35, f5, f7, f8, f9, f10⟩

/-! ## WellFormed: an ill-formed term for its one check -/

theorem test_wf_refuses_known_types_as_unknown :
    (Instr.unknown 0x31 (digits12345 0x32 0x30 0x35 0x30 0x30)).wf = false ∧
    (Instr.unknown 0x3D (digits12345 0x32 0x30 0x35 0x30 0x30)).wf = false := by decide

theorem test_wf_admits_bytes_beside_the_range :
    (Instr.unknown 0x30 (digits12345 0x32 0x30 0x35 0x30 0x30)).wf = true ∧
    (Instr.unknown 0x3E (digits12345 0x32 0x30 0x35 0x30 0x30)).wf = true := by decide

/-! ## Decoding: one frame for each constructor, `31 32 33 34 35 32 <F6> 30 35 30 30` (V10 to V24, R80) -/

/-- The frame of V10 to V29. -/
def classifierFrame (f6 : Byte) : List Byte := [0x31, 0x32, 0x33, 0x34, 0x35, 0x32, f6, 0x30, 0x35, 0x30, 0x30]

/-- Its operands. -/
def classifierOperands : Operands := digits12345 0x32 0x30 0x35 0x30 0x30

theorem test_decode_voltage_types :
    decode (classifierFrame 0x31) = .ok (.dcv classifierOperands) ∧
    decode (classifierFrame 0x32) = .ok (.acv classifierOperands) ∧
    decode (classifierFrame 0x33) = .ok (.mv classifierOperands) := by decide

theorem test_decode_resistance_types :
    decode (classifierFrame 0x34) = .ok (.ohm classifierOperands) ∧
    decode (classifierFrame 0x3A) = .ok (.beep classifierOperands) ∧
    decode (classifierFrame 0x3B) = .ok (.diode classifierOperands) := by decide

theorem test_decode_capacitance_and_temperature_types :
    decode (classifierFrame 0x35) = .ok (.cap classifierOperands) ∧
    decode (classifierFrame 0x36) = .ok (.tempc classifierOperands) ∧
    decode (classifierFrame 0x3D) = .ok (.tempf classifierOperands) := by decide

theorem test_decode_current_and_frequency_types :
    decode (classifierFrame 0x37) = .ok (.ua classifierOperands) ∧
    decode (classifierFrame 0x38) = .ok (.ma classifierOperands) ∧
    decode (classifierFrame 0x39) = .ok (.amp classifierOperands) ∧
    decode (classifierFrame 0x3C) = .ok (.freq classifierOperands) := by decide

/-- V10, V24 to V29: the bytes beside the range, and bytes whose low nibble alone would select a type (C3). -/
theorem test_decode_unknown_types :
    ∀ b ∈ [0x30, 0x3E, 0x3F, 0x2F, 0xFF, 0x41, 0x00], decode (classifierFrame b) = .ok (.unknown b classifierOperands) :=
  by decide

/-- E1: the bus value the spec writes out is the packing of its bytes (R52). -/
theorem test_bus_packing_of_example_one : bus (classifierFrame 0x31) = 0x3030353031323534333231 := by decide

/-- V121 on the bus, through the host's numbering. -/
theorem test_table_word_of_unknown : decodeTableWord 88 0x303035303E323534333231 = some (.unknown 0x3E classifierOperands) := by
  decide

theorem test_short_and_long_frames_are_refused :
    decode [0x31, 0x32, 0x33, 0x34, 0x35, 0x32, 0x31, 0x30, 0x35, 0x30] = .error (.frameLength 10) ∧
    decode ((0x30 : Byte) :: classifierFrame 0x31) = .error (.frameLength 12) := by decide

/-! ## Lanes and codes -/

/-- V1 to V8. -/
theorem test_lanes_of_vectors :
    [0x30, 0x39, 0x3A, 0x3F, 0x2F, 0x00, 0xFF, 0x40].map lane = [0, 9, 10, 15, 0xFF, 0xD0, 0xCF, 0x10] := by decide

/-- V30, V32 and V33: the sign decoder before it is masked to NUMERIC. -/
theorem test_sign_decoder_vectors :
    negFlag .dcv (digits12345 0x32 0x30 0x34 0x30 0x30) = false ∧
    negFlag .dcv (digits12345 0x32 0x30 0x35 0x30 0x30) = true ∧
    negFlag .mv (digits12345 0x32 0x30 0x34 0x30 0x30) = true ∧
    negFlag .mv (digits12345 0x32 0x30 0x35 0x30 0x30) = false ∧
    negFlag .ohm (digits12345 0x32 0x30 0x34 0x30 0x30) = false := by decide

/-- V37, V39 and V39e: the point at both ends and in the middle. -/
theorem test_value_text_vectors :
    numericText false 0 (ascii "12345") = ascii ".12345" ∧
    numericText false 2 (ascii "12345") = ascii "12.345" ∧
    numericText true 5 (ascii "12345") = ascii "-12345." := by decide

/-- Section 3.4: U_KOHM and U_MHZ on `out_utext`. -/
theorem test_unit_text_vectors : pack4 (unitText .uKohm) = 0x6D686F6B ∧ pack4 (unitText .uMHz) = 0x007A484D := by decide

/-! ## The instructions, one edge after reset -/

/-- V40. -/
theorem test_dcv_negative :
    row [0x31, 0x32, 0x33, 0x34, 0x35, 0x32, 0x31, 0x30, 0x35, 0x30, 0x30] =
      some ⟨1, 0, true, 2, 1, false, ascii "-12.345", ascii "V"⟩ := by decide

/-- V49a: selector lane 0xFF is UNMAPPED and an error has no sign. -/
theorem test_dcv_error :
    row [0x31, 0x32, 0x33, 0x34, 0x35, 0x2F, 0x31, 0x30, 0x35, 0x30, 0x30] =
      some ⟨1, 1, false, 0, 0, false, ascii "error", ascii ""⟩ := by decide

/-- V80. -/
theorem test_acv_error :
    row [0x31, 0x32, 0x33, 0x34, 0x35, 0x39, 0x32, 0x30, 0x35, 0x30, 0x30] =
      some ⟨2, 1, false, 0, 0, false, ascii "error", ascii ""⟩ := by decide

/-- V87: a mapped ACV value has no sign on sign byte 0x35. -/
theorem test_acv_mapped_is_unsigned :
    valueText (num .acv 2 .uV (digits12345 0x32 0x30 0x35 0x30 0x30)) (digits12345 0x32 0x30 0x35 0x30 0x30) =
      ascii "12.345" := by decide

/-- V81. -/
theorem test_mv_error :
    row [0x31, 0x32, 0x33, 0x34, 0x35, 0x38, 0x33, 0x30, 0x34, 0x30, 0x30] =
      some ⟨3, 1, false, 0, 0, false, ascii "error", ascii ""⟩ := by decide

/-- S5: a mapped MV value with sign byte 0x34. -/
theorem test_mv_mapped_is_negative :
    valueText (num .mv 3 .uMV ⟨0x30, 0x31, 0x32, 0x33, 0x34, 0x30, 0x30, 0x34, 0x30, 0x30⟩)
      ⟨0x30, 0x31, 0x32, 0x33, 0x34, 0x30, 0x30, 0x34, 0x30, 0x30⟩ = ascii "-012.34" := by decide

/-- V56: a raw '/' digit, and the second fixed entry of the table. -/
theorem test_ohm_raw_digit :
    row [0x31, 0x2F, 0x33, 0x34, 0x35, 0x31, 0x34, 0x30, 0x30, 0x30, 0x30] =
      some ⟨4, 0, false, 3, 3, true, ascii "1/3.45", ascii "ohm"⟩ := by decide

/-- V53: the sentinel wins over an unmapped selector. -/
theorem test_ohm_sentinel_first :
    row [0x3A, 0x30, 0x35, 0x30, 0x30, 0x39, 0x34, 0x30, 0x30, 0x30, 0x30] =
      some ⟨4, 2, false, 0, 3, false, ascii "out of range", ascii "ohm"⟩ := by decide

/-- V61. -/
theorem test_cap_out_of_range :
    row [0x3A, 0x30, 0x30, 0x30, 0x30, 0x37, 0x35, 0x30, 0x35, 0x30, 0x30] =
      some ⟨5, 2, false, 0, 0, false, ascii "out of range", ascii ""⟩ := by decide

/-- V62. -/
theorem test_cap_error :
    row [0x30, 0x30, 0x30, 0x30, 0x30, 0xFF, 0x35, 0x30, 0x30, 0x30, 0x30] =
      some ⟨5, 1, false, 0, 0, false, ascii "error", ascii ""⟩ := by decide

/-- V70. -/
theorem test_tempc_out_of_range :
    row [0x3A, 0x30, 0x30, 0x30, 0x30, 0x30, 0x36, 0x30, 0x35, 0x30, 0x30] =
      some ⟨6, 2, false, 0, 9, false, ascii "out of range", ascii "C"⟩ := by decide

/-- V71. -/
theorem test_tempc_error :
    row [0x30, 0x30, 0x30, 0x30, 0x30, 0x38, 0x36, 0x30, 0x30, 0x30, 0x30] =
      some ⟨6, 1, false, 0, 0, false, ascii "error", ascii ""⟩ := by decide

/-- V82. -/
theorem test_ua_error :
    row [0x31, 0x32, 0x33, 0x34, 0x35, 0x38, 0x37, 0x30, 0x34, 0x30, 0x30] =
      some ⟨7, 1, false, 0, 0, false, ascii "error", ascii ""⟩ := by decide

/-- V83. -/
theorem test_ma_error :
    row [0x31, 0x32, 0x33, 0x34, 0x35, 0x38, 0x38, 0x30, 0x34, 0x30, 0x30] =
      some ⟨8, 1, false, 0, 0, false, ascii "error", ascii ""⟩ := by decide

/-- V84. -/
theorem test_amp_error :
    row [0x31, 0x32, 0x33, 0x34, 0x35, 0x38, 0x39, 0x30, 0x34, 0x30, 0x30] =
      some ⟨9, 1, false, 0, 0, false, ascii "error", ascii ""⟩ := by decide

/-- V88: d0 = 10 is no sentinel for AMP. -/
theorem test_amp_has_no_sentinel :
    (num .amp 0 .uA ⟨0x3A, 0x30, 0x30, 0x30, 0x30, 0x31, 0x30, 0x34, 0x30, 0x30⟩).digitErr = true ∧
    valueText (num .amp 0 .uA ⟨0x3A, 0x30, 0x30, 0x30, 0x30, 0x31, 0x30, 0x34, 0x30, 0x30⟩)
      ⟨0x3A, 0x30, 0x30, 0x30, 0x30, 0x31, 0x30, 0x34, 0x30, 0x30⟩ = ascii "-.:0000" := by decide

/-- V90: open wins over the selector. -/
theorem test_beep_open :
    row [0x3A, 0x30, 0x30, 0x30, 0x30, 0x33, 0x3A, 0x30, 0x30, 0x30, 0x30] =
      some ⟨10, 3, false, 0, 0, false, ascii "open", ascii ""⟩ := by decide

/-- V93. -/
theorem test_beep_high_resistance :
    row [0x30, 0x30, 0x30, 0x31, 0x32, 0xFF, 0x3A, 0x30, 0x30, 0x30, 0x30] =
      some ⟨10, 4, false, 0, 0, false, ascii "high resistance", ascii ""⟩ := by decide

/-- V101. -/
theorem test_diode_open :
    row [0x3A, 0x30, 0x30, 0x30, 0x30, 0x39, 0x3B, 0x30, 0x34, 0x30, 0x30] =
      some ⟨11, 3, false, 0, 0, false, ascii "open", ascii ""⟩ := by decide

/-- V102. -/
theorem test_diode_error :
    row [0x30, 0x30, 0x30, 0x30, 0x30, 0x38, 0x3B, 0x30, 0x30, 0x30, 0x30] =
      some ⟨11, 1, false, 0, 0, false, ascii "error", ascii ""⟩ := by decide

/-- V113. -/
theorem test_freq_no_default :
    row [0x31, 0x32, 0x33, 0x34, 0x35, 0x38, 0x3C, 0x30, 0x30, 0x30, 0x30] =
      some ⟨12, 5, false, 0, 0, false, [], ascii ""⟩ := by decide

/-- V112: whatever the table says of FREQ 3, the frame is NUMERIC with a digit error. -/
theorem test_freq_has_no_sentinel :
    (outAfter State.reset (bus [0x3A, 0x32, 0x33, 0x34, 0x35, 0x33, 0x3C, 0x30, 0x30, 0x30, 0x30])).map
      (fun r => (r.kind.toNat, r.neg, r.digitErr)) = some (0, false, true) := by decide

/-- V72. -/
theorem test_tempf_out_of_range :
    row [0x3A, 0x30, 0x30, 0x30, 0x30, 0x30, 0x3D, 0x30, 0x30, 0x30, 0x30] =
      some ⟨13, 2, false, 0, 10, false, ascii "out of range", ascii "F"⟩ := by decide

/-- V74. -/
theorem test_tempf_error :
    row [0x30, 0x30, 0x30, 0x30, 0x30, 0x39, 0x3D, 0x30, 0x30, 0x30, 0x30] =
      some ⟨13, 1, false, 0, 0, false, ascii "error", ascii ""⟩ := by decide

/-- OUT after edge 1 of programs T1 and T2, from their tables. -/
def outOfExampleOne : Out :=
  { valid := true, diag := false, typ := 1, typeRaw := 0x31, kind := 0, neg := true, dp := 2, unit := 1
    digits := 0x0504030201, digitErr := false, vtext := 0x0000000000000000003534332E32312D, vlen := 7
    utext := 0x00000056, ulen := 1 }

/-- A state with that OUT. -/
def stateOfExampleOne : State := { State.reset with out := outOfExampleOne }

/-- T2 edge 2: the diagnostic holds the measurement. -/
theorem test_unknown_holds_the_measurement :
    outAfter stateOfExampleOne (bus (classifierFrame 0x3E)) =
      some { outOfExampleOne with valid := false, diag := true, typ := 0, typeRaw := 0x3E } := by decide

/-! ## Edges that decode no frame -/

/-- T2 edge 5: reset wins over a frame. -/
theorem test_reset_wins :
    step { stateOfExampleOne with inputs := [{ presentFrame (bus (classifierFrame 0x34)) with rst := true }] } =
      .next State.reset := by rfl

/-- T1 edge 4: an idle edge drops the strobe and holds the rest. -/
theorem test_idle_holds :
    step { stateOfExampleOne with inputs := [quietPorts] } =
      .next { stateOfExampleOne with out := { outOfExampleOne with valid := false } } := by rfl

/-- R261: before the first reset a frame and an idle edge leave a free value in OUT, and a reset edge ends that. -/
theorem test_before_the_first_reset :
    step (State.powerOn [presentFrame (bus (classifierFrame 0x31)), quietPorts]) =
      .next { out := Config.freeOut 1, inputs := [quietPorts], draws := 2, resetSeen := false } ∧
    step (State.powerOn []) = .next { out := Config.freeOut 1, inputs := [], draws := 2, resetSeen := false } ∧
    step (State.powerOn [{ quietPorts with rst := true }]) = .next { State.reset with draws := 1 } := ⟨rfl, rfl, rfl⟩

/-- The host's question: step runs the table word next. -/
theorem test_fetched_word_runs :
    step (State.reset.withFetchWord 88 0x0000000034000000000000) =
      exec (.ohm ⟨0, 0, 0, 0, 0, 0, 0, 0, 0, 0⟩) State.reset := by rfl

/-! ## The candidate table of 93_implementation_defined.md G2 (not normative: wiring only) -/

/-- The candidate fill. -/
def candidate : Table
  | .dcv, s => [none, some (1, .uV), some (2, .uV), some (3, .uV), some (4, .uV), none, none, none].getD s.val none
  | .acv, s => [none, some (1, .uV), some (2, .uV), some (3, .uV), some (4, .uV), none, none, none].getD s.val none
  | .mv, s => [some (3, .uMV)].getD s.val none
  | .ohm, s => [none, some (3, .uOhm), some (1, .uKohm), some (2, .uKohm), some (3, .uKohm), some (1, .uMohm),
      some (2, .uMohm)].getD s.val none
  | .cap, s => [none, some (2, .uNF), some (3, .uNF), some (1, .uUF), some (2, .uUF), some (3, .uUF), some (1, .uMF),
      some (2, .uMF)].getD s.val none
  | .tempc, s => [some (4, .uC)].getD s.val none
  | .ua, s => [some (3, .uUA), some (4, .uUA)].getD s.val none
  | .ma, s => [some (2, .uMA), some (3, .uMA)].getD s.val none
  | .amp, s => [none, some (2, .uA)].getD s.val none
  | .beep, _ => none
  | .diode, s => [some (1, .uV)].getD s.val none
  | .freq, s => [some (2, .uHz), some (3, .uHz), some (1, .uKHz), some (2, .uKHz), some (3, .uKHz), some (1, .uMHz),
      some (2, .uMHz), some (3, .uMHz)].getD s.val none
  | .tempf, s => [some (4, .uF)].getD s.val none

/-- The candidate meets R131, so it is one of the tables the model admits. -/
theorem witness_ExactlyTheConstrainedTablesAreAdmitted : MeetsR131 candidate where
  dcv_mapped := by decide
  dcv_two := by decide
  dcv_units := by unfold UnitsIn; decide
  acv_units := by unfold UnitsIn; decide
  mv_units := by unfold UnitsIn; decide
  ohm_mapped := by decide
  ohm_one := by decide
  ohm_units := by unfold UnitsIn; decide
  cap_gap := by decide
  cap_units := by unfold UnitsIn; decide
  tempc_units := by unfold UnitsIn; decide
  ua_units := by unfold UnitsIn; decide
  ma_units := by unfold UnitsIn; decide
  amp_units := by unfold UnitsIn; decide
  freq_mapped := by decide
  freq_units := by unfold UnitsIn; decide
  tempf_units := by unfold UnitsIn; decide

/-- S1, S2, S4 and S5: the admitted candidate is the candidate. -/
theorem test_candidate_table_is_admitted :
    admitted candidate .freq 0 = some (2, .uHz) ∧ admitted candidate .freq 7 = some (3, .uMHz) ∧
    admitted candidate .cap 0 = none ∧ admitted candidate .mv 0 = some (3, .uMV) := by decide

/-- R131 on a choice that breaks it everywhere: all unmapped, or all mapped to volts. -/
theorem test_bad_choices_are_brought_into_the_constraints :
    admitted (fun _ _ => none) .dcv 2 = some (2, .uV) ∧ (admitted (fun _ _ => none) .freq 5).isSome = true ∧
    admitted (fun _ _ => some (1, .uV)) .cap 0 = none ∧ admitted (fun _ _ => some (1, .uV)) .tempf 3 = some (1, .uF) ∧
    admitted (fun _ _ => some (1, .uV)) .dcv 5 = none := by decide

/-! ## Every obligation's hypotheses can be met -/

/-- V47: E1's frame with other reserved bytes. -/
def reservedFrame : Frame := bus [0x31, 0x32, 0x33, 0x34, 0x35, 0x32, 0x31, 0xFF, 0x35, 0x0D, 0x0A]

/-- A state with one edge listed. -/
def stateWith (e : EdgeInput) : State := { stateOfExampleOne with inputs := [e] }

theorem witness_DecodeOfEncodeIsTheInstruction :
    (Instr.dcv classifierOperands).wf = true ∧ (Instr.unknown 0x30 classifierOperands).wf = true := by decide

theorem witness_OnlyElevenBytesDecode :
    (classifierFrame 0x31).length = 11 ∧ ([] : List Byte).length ≠ 11 := by decide

theorem witness_LaneWrapsAroundAtEightBits :
    0x30 ≤ (0x3F : Byte).toNat ∧ (0x3F : Byte).toNat ≤ 0x3F ∧ (0x2F : Byte).toNat < 0x30 ∧ 0x40 ≤ (0x40 : Byte).toNat := by
  decide

theorem witness_LaneTestsAreByteTests : (13 : Nat) ≤ 13 ∧ lane 0x3D = BitVec.ofNat 8 13 := by decide

theorem witness_StepRunsTheDecodedFrame :
    (stateWith (presentFrame reservedFrame)).inputs = [presentFrame reservedFrame] ∧
    (presentFrame reservedFrame).rst = false ∧ (presentFrame reservedFrame).inValid = true ∧
    (presentFrame reservedFrame).frameStable = true := ⟨rfl, rfl, rfl, rfl⟩

theorem witness_FetchedWordRunsNext : (88 : Nat) ≤ 88 ∧ 2 ^ 88 - 1 < 2 ^ 88 := by decide

theorem witness_ResetEdgeGivesResetValues :
    (stateWith { quietPorts with rst := true }).inputs = [{ quietPorts with rst := true }] ∧
    ({ quietPorts with rst := true } : EdgeInput).rst = true := ⟨rfl, rfl⟩

theorem witness_FirstResetForgetsPowerOn : ({ quietPorts with rst := true } : EdgeInput).rst = true := rfl

theorem witness_IdleEdgeHoldsTheData :
    (stateWith quietPorts).inputs = [quietPorts] ∧ (stateWith quietPorts).resetSeen = true ∧ quietPorts.rst = false ∧
    quietPorts.inValid = false := ⟨rfl, rfl, rfl, rfl⟩

theorem witness_BeforeTheFirstResetAFrameLeavesAFreeOut : (State.powerOn []).resetSeen = false := rfl

theorem witness_UntilTheFirstResetOutIsAFreeValue :
    (∀ e ∈ [quietPorts, presentFrame reservedFrame], e.rst = false) ∧
    ({ quietPorts with rst := true } : EdgeInput).rst = true := by decide

theorem witness_UnlistedEdgeIsIdle : stateOfExampleOne.inputs = [] ∧ stateOfExampleOne.resetSeen = true := ⟨rfl, rfl⟩

theorem witness_UnstableFrameLoadsAFreeValue :
    (stateWith { presentFrame reservedFrame with frameStable := false }).inputs =
      [{ presentFrame reservedFrame with frameStable := false }] ∧
    ({ presentFrame reservedFrame with frameStable := false } : EdgeInput).rst = false ∧
    ({ presentFrame reservedFrame with frameStable := false } : EdgeInput).inValid = true ∧
    ({ presentFrame reservedFrame with frameStable := false } : EdgeInput).frameStable = false := ⟨rfl, rfl, rfl, rfl⟩

theorem witness_EveryEdgeUpdatesOutByTheFirstCase :
    (∀ e, (stateWith e).resetSeen = true) ∧
    (WellDriven (State.powerOn [{ quietPorts with rst := true }]).ports ∧
      (State.powerOn [{ quietPorts with rst := true }]).ports.rst = true) ∧
    (WellDriven (stateWith (presentFrame reservedFrame)).ports ∧
      ∃ m, decodeCore (stateWith (presentFrame reservedFrame)).ports.inFrame = .meas m) ∧
    (WellDriven (stateWith (presentFrame (bus (classifierFrame 0x3E)))).ports ∧
      decodeCore (stateWith (presentFrame (bus (classifierFrame 0x3E)))).ports.inFrame = .diag 0x3E) ∧
    (WellDriven (stateWith quietPorts).ports ∧ (stateWith quietPorts).ports.inValid = false) :=
  ⟨fun _ => rfl, ⟨.inl rfl, rfl⟩, ⟨.inr (.inr rfl), _, rfl⟩, ⟨.inr (.inr rfl), rfl⟩, ⟨.inr (.inl rfl), rfl⟩⟩

theorem witness_FirstMatchingRowIsTheDecodedType :
    (⟨some .tempf, 0x00000000FF000000000000, 0x000000003D000000000000⟩ : OpcodeRow) ∈ opcodeTable := by decide

/-- The selector clauses of every statement named <Type>Frames… that reads the table (all but BeepFramesAnswerInOrder), at
the boundaries of 0..7, and a byte on each side. -/
theorem witness_ReadsTable :
    stateOfExampleOne.resetSeen = true ∧
    (digits12345 0x30 0x30 0x35 0x30 0x30).f5 = selByte 0 ∧ (digits12345 0x37 0x30 0x35 0x30 0x30).f5 = selByte 7 ∧
    selectorOutside (digits12345 0x2F 0x30 0x35 0x30 0x30) ∧ selectorOutside (digits12345 0x38 0x30 0x35 0x30 0x30) ∧
    (¬ selectorOutside (digits12345 0x30 0x30 0x35 0x30 0x30)) ∧
    ¬ selectorOutside (digits12345 0x37 0x30 0x35 0x30 0x30) := by
  unfold selectorOutside
  decide

/-- Each type byte stands in a frame: the SelectedBy clauses of every statement named <Type>Frames…. -/
theorem witness_SelectedBy :
    ∀ b ∈ [0x31, 0x32, 0x33, 0x34, 0x35, 0x36, 0x37, 0x38, 0x39, 0x3A, 0x3B, 0x3C, 0x3D],
      frameByte (bus (classifierFrame b)) 6 = b := by decide

/-- The sentinel and the byte beside it (OHM, CAP, TEMPC, TEMPF, BEEP and DIODE), and BEEP's selector clauses. -/
theorem witness_SentinelClauses :
    stateOfExampleOne.resetSeen = true ∧
    (⟨0x3A, 0x30, 0x30, 0x30, 0x30, 0x30, 0x30, 0x30, 0x30, 0x30⟩ : Operands).f0 = 0x3A ∧
    (⟨0x39, 0x30, 0x30, 0x30, 0x30, 0x30, 0x30, 0x30, 0x30, 0x30⟩ : Operands).f0 ≠ 0x3A ∧
    (⟨0x39, 0x30, 0x30, 0x30, 0x30, 0x30, 0x30, 0x30, 0x30, 0x30⟩ : Operands).f5 = 0x30 ∧
    (⟨0x3B, 0x30, 0x30, 0x30, 0x30, 0x31, 0x30, 0x30, 0x30, 0x30⟩ : Operands).f0 ≠ 0x3A ∧
    (⟨0x3B, 0x30, 0x30, 0x30, 0x30, 0x31, 0x30, 0x30, 0x30, 0x30⟩ : Operands).f5 ≠ 0x30 := by decide

theorem witness_UnknownTypesAreDiagnosedOnly :
    (frameByte (bus (classifierFrame 0x30)) 6).toNat < 0x31 ∧ 0x3D < (frameByte (bus (classifierFrame 0x3E)) 6).toNat ∧
    0x31 ≤ (frameByte (bus (classifierFrame 0x31)) 6).toNat ∧ (frameByte (bus (classifierFrame 0x3D)) 6).toNat ≤ 0x3D ∧
    WellDriven (stateWith (presentFrame (bus (classifierFrame 0x3E)))).ports ∧
    (stateWith (presentFrame (bus (classifierFrame 0x3E)))).resetSeen = true := by
  exact ⟨by decide, by decide, by decide, by decide, .inr (.inr rfl), rfl⟩

theorem witness_UnitCodesAndStringsAreExact :
    stateOfExampleOne.resetSeen = true ∧ (Instr.dcv classifierOperands).msgType = some .dcv := ⟨rfl, rfl⟩

theorem witness_EveryFrameLoadsItsTypeCode : stateOfExampleOne.resetSeen = true := rfl

theorem witness_ClassificationDependsOnByteSixOnly :
    State.reset.resetSeen = true ∧ stateOfExampleOne.resetSeen = true ∧
    frameByte reservedFrame 6 = frameByte (bus [0, 0, 0, 0, 0, 0, 0x31, 0, 0, 0, 0]) 6 := by decide

theorem witness_KindIsTheFirstConditionThatApplies :
    stateOfExampleOne.resetSeen = true ∧
    (Instr.unknown 0x3E classifierOperands).wf = true ∧ (Instr.unknown 0x3E classifierOperands).msgType = none ∧
    (Instr.beep classifierOperands).wf = true ∧ (Instr.beep classifierOperands).msgType = some .beep := by decide

theorem witness_UnmappedSelectorGivesError :
    stateOfExampleOne.resetSeen = true ∧
    ((Instr.acv (digits12345 0x38 0x30 0x35 0x30 0x30)).msgType = some .acv ∧
      range .acv (Instr.acv (digits12345 0x38 0x30 0x35 0x30 0x30)).operands = none) ∧
    ((Instr.ohm (digits12345 0x30 0x30 0x35 0x30 0x30)).msgType = some .ohm ∧
      range .ohm (Instr.ohm (digits12345 0x30 0x30 0x35 0x30 0x30)).operands = none ∧
      (Instr.ohm (digits12345 0x30 0x30 0x35 0x30 0x30)).operands.f0 ≠ 0x3A) ∧
    ((Instr.freq (digits12345 0x2F 0x30 0x35 0x30 0x30)).msgType = some .freq ∧
      range .freq (Instr.freq (digits12345 0x2F 0x30 0x35 0x30 0x30)).operands = none) ∧
    (Instr.beep (digits12345 0x31 0x30 0x35 0x30 0x30)).msgType = some .beep := by decide

/-- Also of DigitErrOnlyOnBadNumericDigits, DigitPortHoldsTheLanes and NumericValueStringIsDigitsAroundOnePoint, whose
NUMERIC clause this frame meets. -/
theorem witness_SignFlagOnlyOnNegativeNumericValues :
    stateOfExampleOne.resetSeen = true ∧
    (Instr.dcv classifierOperands).msgType = some .dcv ∧
    (outAfter State.reset (bus (classifierFrame 0x31))).map (fun r => (r.kind, r.digitErr)) = some (0, false) ∧
    (Instr.beep (digits12345 0x31 0x30 0x35 0x30 0x30)).msgType = some .beep := by decide

theorem witness_UnsignedTypesIgnoreTheSignByte :
    stateOfExampleOne.resetSeen = true ∧
    (decodeFrame (bus [0x31, 0x32, 0x33, 0x34, 0x35, 0x32, 0x32, 0x30, 0x35, 0x30, 0x30])).msgType = some .acv ∧
    (∀ k : Fin 11, k ≠ 8 → frameByte (bus [0x31, 0x32, 0x33, 0x34, 0x35, 0x32, 0x32, 0x30, 0x35, 0x30, 0x30]) k =
      frameByte (bus [0x31, 0x32, 0x33, 0x34, 0x35, 0x32, 0x32, 0x30, 0x34, 0x30, 0x30]) k) := by decide

theorem witness_ReservedBytesChangeNoOutput :
    (∀ k : Fin 11, k ≠ 7 → k ≠ 9 → k ≠ 10 → frameByte reservedFrame k = frameByte (bus (classifierFrame 0x31)) k) ∧
    reservedFrame ≠ bus (classifierFrame 0x31) := by decide

theorem witness_TextPortsArePackedAndPadded :
    stateOfExampleOne.resetSeen = true ∧
    (∃ m, resultOf (.dcv classifierOperands) = .meas m ∧ m.kind = .numeric) ∧
    ∃ m, resultOf (.beep (digits12345 0x31 0x30 0x35 0x30 0x30)) = .meas m ∧ m.kind = .highRes :=
  ⟨rfl, ⟨_, rfl, by decide⟩, ⟨_, rfl, by decide⟩⟩

theorem witness_LiteralStringsAreExact :
    ∀ k ∈ [Kind.error, .outOfRange, .open_, .highRes, .noDefault], (only k .uNone classifierOperands).kind = k := by decide

theorem witness_NothingButOutChanges :
    (∃ t, exec (.dcv classifierOperands) stateOfExampleOne = .next t) ∧
    (∃ t, exec (.unknown 0x3E classifierOperands) stateOfExampleOne = .next t) ∧
    stateOfExampleOne.resetSeen = true ∧ (Instr.unknown 0x3E classifierOperands).msgType = none :=
  ⟨⟨_, rfl⟩, ⟨_, rfl⟩, rfl, rfl⟩

theorem witness_MeasuredFrameForgetsOut :
    isMeasured reservedFrame = true ∧ stateOfExampleOne.resetSeen = true := by decide

theorem witness_ResetMeetsTheInvariant :
    ∀ e ∈ [quietPorts, presentFrame reservedFrame, { presentFrame 0 with rst := true, frameStable := false }],
      WellDriven e := by
  unfold WellDriven
  decide

/-- A state with a measurement shown meets the invariant and steps on; State.reset meets it as well. -/
theorem witness_EveryEdgeKeepsTheInvariant :
    State.reset.resetSeen = true ∧ OutInv Out.reset ∧ InputsWellDriven { State.reset with inputs := [presentFrame reservedFrame] } ∧
    ∃ t, step { State.reset with inputs := [presentFrame reservedFrame] } = .next t ∧ t.out.valid = true :=
  ⟨rfl, ⟨⟨by decide, by decide, by decide, by decide⟩, .inr ⟨rfl, rfl⟩⟩,
    by unfold InputsWellDriven WellDriven; decide, _, rfl, rfl⟩

/-- The coherent side of the invariant: the OUT of example 1. -/
theorem witness_CoherentFields : Coherent (fields outOfExampleOne) where
  kind_code := by decide
  dp_code := by decide
  unit_code := ⟨.uV, by decide, by decide, by decide⟩
  only_numeric := fun h => absurd rfl h
  digit_err := by decide
  value_text := by decide
  value_len := by decide

theorem witness_StrobesAreNeverBothOne :
    WellDriven (stateWith (presentFrame reservedFrame)).ports ∧
    (stateWith (presentFrame reservedFrame)).resetSeen = true := ⟨.inr (.inr rfl), rfl⟩

/-- A history for each clause: a reset, a measured frame, an unknown one; and histories with none of them. The first two
hold a reset, so that they may start before one. -/
theorem witness_OutShowsTheLastFramesOfItsHistory :
    stateOfExampleOne.resetSeen = true ∧
    [presentFrame reservedFrame, { quietPorts with rst := true }].any (fun e => e.rst) = true ∧
    (∀ e ∈ [{ quietPorts with rst := true }, presentFrame reservedFrame, presentFrame (bus (classifierFrame 0x3E))],
      WellDriven e) ∧
    lastMeasured [{ quietPorts with rst := true }, presentFrame reservedFrame,
      presentFrame (bus (classifierFrame 0x3E))] = some reservedFrame ∧
    lastAccepted [{ quietPorts with rst := true }, presentFrame reservedFrame,
      presentFrame (bus (classifierFrame 0x3E))] = some (bus (classifierFrame 0x3E)) ∧
    lastAccepted [presentFrame reservedFrame, { quietPorts with rst := true }] = none ∧
    lastMeasured [quietPorts] = none := by
  unfold WellDriven
  decide

end Sys2Proof.Tests
end

section
/-! PROOFS. The constraints of R131 and the admitted table (R11; 92_eei_decisions.md D8): where the admitted table is
mapped, what its entries are, and why a choice that meets R131 passes through it unchanged. -/

namespace Sys2Proof.Machine

open Sys2Proof.Safety

/-! ## What the admitted table holds -/

/-- The source fixes exactly two entries (R131). -/
theorem fixedEntry_eq_some {t : MsgType} {s : Selector} {e : PrintPattern × UnitCode} :
    fixedEntry t s = some e ↔ (t = .dcv ∧ s = 2 ∧ e = (2, .uV)) ∨ (t = .ohm ∧ s = 1 ∧ e = (3, .uOhm)) := by
  unfold fixedEntry
  split
  · next hdcv => simp [hdcv, eq_comm]
  · next hdcv =>
    split
    · next hohm => simp [hohm, eq_comm]
    · next hohm => simp_all

theorem admitted_of_fixedEntry (c : Table) {t : MsgType} {s : Selector} {e : PrintPattern × UnitCode}
    (h : fixedEntry t s = some e) : admitted c t s = some e := by
  simp only [admitted, h]

theorem isMapped_of_exactSelectors (c : Table) {t : MsgType} {ss : List Selector} (s : Selector)
    (h : exactSelectors t = some ss) : isMapped c t s = ss.contains s := by
  simp only [isMapped, h]

/-- A fixed entry stands at a selector that its type maps. -/
theorem isMapped_of_fixedEntry (c : Table) {t : MsgType} {s : Selector} {e : PrintPattern × UnitCode}
    (h : fixedEntry t s = some e) : isMapped c t s = true := by
  obtain ⟨rfl, rfl, -⟩ | ⟨rfl, rfl, -⟩ := fixedEntry_eq_some.1 h <;> rfl

theorem isSome_admitted (c : Table) (t : MsgType) (s : Selector) :
    (admitted c t s).isSome = isMapped c t s := by
  cases hf : fixedEntry t s with
  | some e => rw [admitted_of_fixedEntry c hf, isMapped_of_fixedEntry c hf, Option.isSome_some]
  | none => cases hm : isMapped c t s <;> simp [admitted, hf, hm]

theorem mem_allSelectors (s : Selector) : s ∈ allSelectors := by
  revert s; decide

/-- `capGap` takes away entry 0 of CAP, and only from a choice that maps all eight selectors of CAP. -/
theorem capGap_eq_true (c : Table) (t : MsgType) (s : Selector) :
    capGap c t s = true ↔ t = .cap ∧ s = 0 ∧ ∀ k, (c .cap k).isSome = true := by
  simp [capGap, mem_allSelectors, and_assoc]

/-- The admitted table leaves a selector of CAP UNMAPPED: one the choice leaves so, otherwise selector 0. -/
theorem admitted_cap_gap (c : Table) : ∃ s, admitted c .cap s = none := by
  have hgap : ∃ s, isMapped c .cap s = false := by
    by_cases hall : ∀ k, (c .cap k).isSome = true
    · have h0 : capGap c .cap 0 = true := (capGap_eq_true c .cap 0).2 ⟨rfl, rfl, hall⟩
      exact ⟨0, by simp [isMapped, exactSelectors, h0]⟩
    · obtain ⟨k, hk⟩ := not_forall.1 hall
      exact ⟨k, by simp [isMapped, exactSelectors, hk]⟩
  obtain ⟨s, hs⟩ := hgap
  exact ⟨s, by rw [← Option.isNone_iff_eq_none, ← Option.isSome_eq_false_iff, isSome_admitted, hs]⟩

theorem unitsIn_admitted (c : Table) (t : MsgType) : UnitsIn (admitted c) t (unitFamily t) :=
  admitted_cases c t

/-- Whatever the free choice is, the admitted table meets R131, row by row. -/
theorem meetsR131_admitted (c : Table) : MeetsR131 (admitted c) where
  dcv_mapped s := by
    rw [isSome_admitted, isMapped_of_exactSelectors c s rfl]; revert s; decide
  dcv_two := admitted_of_fixedEntry c rfl
  dcv_units := unitsIn_admitted c .dcv
  acv_units := unitsIn_admitted c .acv
  mv_units := unitsIn_admitted c .mv
  ohm_mapped s := by
    rw [isSome_admitted, isMapped_of_exactSelectors c s rfl]; revert s; decide
  ohm_one := admitted_of_fixedEntry c rfl
  ohm_units := unitsIn_admitted c .ohm
  cap_gap := admitted_cap_gap c
  cap_units := unitsIn_admitted c .cap
  tempc_units := unitsIn_admitted c .tempc
  ua_units := unitsIn_admitted c .ua
  ma_units := unitsIn_admitted c .ma
  amp_units := unitsIn_admitted c .amp
  freq_mapped s := by
    rw [isSome_admitted, isMapped_of_exactSelectors c s rfl]; revert s; decide
  freq_units := unitsIn_admitted c .freq
  tempf_units := unitsIn_admitted c .tempf

end Sys2Proof.Machine

namespace Sys2Proof.Safety

open Sys2Proof.Machine

/-! ## What a table that meets R131 holds -/

theorem MeetsR131.eq_of_fixedEntry {c : Table} (h : MeetsR131 c) {t : MsgType} {s : Selector}
    {e : PrintPattern × UnitCode} (hf : fixedEntry t s = some e) : c t s = some e := by
  obtain ⟨rfl, rfl, rfl⟩ | ⟨rfl, rfl, rfl⟩ := fixedEntry_eq_some.1 hf
  · exact h.dcv_two
  · exact h.ohm_one

/-- The list of every unit code constrains nothing: the rows of BEEP and DIODE (R131; log 15). -/
theorem unitsIn_allUnits (c : Table) (t : MsgType) : UnitsIn c t allUnits := fun s =>
  match c t s with
  | none => .inl rfl
  | some (p, u) => .inr ⟨p, u, mem_allUnits u, rfl⟩

theorem MeetsR131.unitsIn {c : Table} (h : MeetsR131 c) (t : MsgType) : UnitsIn c t (unitFamily t) :=
  match t with
  | .dcv => h.dcv_units
  | .acv => h.acv_units
  | .mv => h.mv_units
  | .ohm => h.ohm_units
  | .cap => h.cap_units
  | .tempc => h.tempc_units
  | .ua => h.ua_units
  | .ma => h.ma_units
  | .amp => h.amp_units
  | .beep => unitsIn_allUnits c .beep
  | .diode => unitsIn_allUnits c .diode
  | .freq => h.freq_units
  | .tempf => h.tempf_units

theorem MeetsR131.capGap_eq_false {c : Table} (h : MeetsR131 c) (t : MsgType) (s : Selector) :
    capGap c t s = false := by
  obtain ⟨k, hk⟩ := h.cap_gap
  rw [← Bool.not_eq_true, capGap_eq_true]
  rintro ⟨-, -, hall⟩
  simpa [hk] using hall k

/-- Where R131 gives the mapped selectors, a table that meets it maps exactly those. -/
theorem MeetsR131.isSome_of_exactSelectors {c : Table} (h : MeetsR131 c) {t : MsgType} {ss : List Selector}
    (s : Selector) (hss : exactSelectors t = some ss) : (c t s).isSome = ss.contains s := by
  cases t <;> cases hss
  case dcv => rw [Bool.eq_iff_iff, h.dcv_mapped]; revert s; decide
  case ohm => rw [Bool.eq_iff_iff, h.ohm_mapped]; revert s; decide
  case freq => rw [h.freq_mapped]; revert s; decide

theorem MeetsR131.isMapped_eq {c : Table} (h : MeetsR131 c) (t : MsgType) (s : Selector) :
    isMapped c t s = (c t s).isSome := by
  cases hss : exactSelectors t with
  | some ss => rw [isMapped_of_exactSelectors c s hss, h.isSome_of_exactSelectors s hss]
  | none => simp [isMapped, hss, h.capGap_eq_false]

/-- A choice that meets R131 is admitted unchanged: its mapped selectors and its units are already those R131 allows. -/
theorem MeetsR131.admitted_eq {c : Table} (h : MeetsR131 c) : admitted c = c := by
  funext t s
  cases hf : fixedEntry t s with
  | some e => rw [admitted_of_fixedEntry c hf, h.eq_of_fixedEntry hf]
  | none =>
    obtain hn | ⟨p, u, hu, hc⟩ := h.unitsIn t s
    · simp [admitted, hf, h.isMapped_eq, hn]
    · simp [admitted, hf, h.isMapped_eq, hc, fitEntry, fitUnit_of_mem hu]

end Sys2Proof.Safety

namespace Sys2Proof.Proofs

open Sys2Proof.Machine

/-- Settles O46: the admitted table meets R131 row by row, and a choice that meets R131 keeps its fixed entries, its
mapped selectors and its units. -/
theorem exactlyTheConstrainedTablesAreAdmitted : Obligations.ExactlyTheConstrainedTablesAreAdmitted :=
  ⟨meetsR131_admitted, fun _ h => h.admitted_eq⟩

end Sys2Proof.Proofs
end

section
/-! PROOFS. An edge on OUT (10_state.md, R30). Once a reset has been seen, an edge that keeps R266 is one function of OUT
and the ports it samples, `Out.afterEdge`; the statements about edges, histories and the invariant of the output stage
are read off that function. -/

namespace Sys2Proof.Machine

open Sys2Proof.Safety

/-! ## A presented frame -/

/-- An edge that decodes a frame is exec of its instruction (R30 cases 2 and 3, R101). -/
theorem step_of_frame {s : State} {f : Frame} (h : edgeCase s.ports = .frame f) :
    step s = exec (decodeFrame f) s.dropPorts := by
  simp only [step, h]

/-- A table word inside its width is its own bits on the bus (R86). -/
theorem tableFrame_of_lt {n w : Nat} (h : w < 2 ^ n) : tableFrame n w = BitVec.ofNat 88 w := by
  simp only [tableFrame, Nat.mod_eq_of_lt h]

/-! ## What DECODE answers, by byte 6 -/

/-- A measurement is of the type that byte 6 selects, and is built by `num` or `only` for it. -/
theorem decodeCore_meas {f : Frame} {m : Measurement} (h : decodeCore f = .meas m) :
    ∃ t, frameByte f 6 = typeByte t ∧ BuiltBy t (frameOperands f) m := by
  rcases resultOf_cases (decodeFrame f) with ⟨t, m', -, hb, hr, hm⟩ | ⟨b, o, -, hr⟩
  · obtain rfl : m' = m := Result.meas.inj (hr.symm.trans h)
    exact ⟨t, by simpa using hb, by simpa using hm⟩
  · cases hr.symm.trans h

/-- A diagnostic carries byte 6, which selects no type (R103). -/
theorem decodeCore_diag {f : Frame} {b : Byte} (h : decodeCore f = .diag b) :
    b = frameByte f 6 ∧ classify (frameByte f 6) = none := by
  obtain ⟨hop, -, hty⟩ := decodeFrame_spec f
  rcases resultOf_cases (decodeFrame f) with ⟨t, m, -, -, hr, -⟩ | ⟨b', o, hi, hr⟩
  · cases hr.symm.trans h
  · obtain rfl : b' = b := Result.diag.inj (hr.symm.trans h)
    rw [hi] at hop hty
    exact ⟨hop, hty.symm⟩

/-- The type code of every type is one of 1..13 (R80). -/
theorem typecode_typeByte_ne_zero (t : MsgType) : typecode (typeByte t) ≠ 0 := by
  cases t <;> decide

/-- A byte that selects no type has type code 0 (R102). -/
theorem typecode_of_classify_none {b : Byte} (h : classify b = none) : typecode b = 0 := by
  revert b; decide

theorem isMeasured_of_meas {f : Frame} {m : Measurement} (h : decodeCore f = .meas m) : isMeasured f = true := by
  simp only [isMeasured, h]

theorem isMeasured_of_diag {f : Frame} {b : Byte} (h : decodeCore f = .diag b) : isMeasured f = false := by
  simp only [isMeasured, h]

theorem isMeasured_eq_true {f : Frame} : isMeasured f = true ↔ ∃ m, decodeCore f = .meas m := by
  cases h : decodeCore f with
  | meas m => simp [isMeasured_of_meas h]
  | diag b => simp [isMeasured_of_diag h]

/-! ## OUT after an accepted frame -/

/-- OUT after a frame is accepted: the measurement or the diagnostic that DECODE answers (R30 cases 2 and 3). -/
def Out.loadFrame (r : Out) (f : Frame) : Out :=
  match decodeCore f with
  | .meas m => (r.loadType (frameByte f 6)).loadMeas m (frameOperands f)
  | .diag _ => (r.loadType (frameByte f 6)).loadDiag

theorem loadFrame_of_meas {f : Frame} {m : Measurement} (h : decodeCore f = .meas m) (r : Out) :
    r.loadFrame f = (r.loadType (frameByte f 6)).loadMeas m (frameOperands f) := by
  simp only [Out.loadFrame, h]

theorem loadFrame_of_diag {f : Frame} {b : Byte} (h : decodeCore f = .diag b) (r : Out) :
    r.loadFrame f = (r.loadType (frameByte f 6)).loadDiag := by
  simp only [Out.loadFrame, h]

/-- A measurement writes all fourteen fields, so nothing of the OUT before it is left (R24). -/
theorem loadMeas_loadType_forgets (r q : Out) (f6 : Byte) (m : Measurement) (o : Operands) :
    (r.loadType f6).loadMeas m o = (q.loadType f6).loadMeas m o := rfl

/-- Once a reset has been seen, executing a frame's instruction loads that frame into OUT. -/
theorem exec_decodeFrame {s : State} (h : s.resetSeen = true) (f : Frame) :
    exec (decodeFrame f) s = .next (s.setOut (s.out.loadFrame f)) := by
  rw [exec_eq_accept, opcodeByte_decodeFrame, operands_decodeFrame]
  change Host.Outcome.next (accept _ _ (decodeCore f) s) = _
  cases hd : decodeCore f with
  | meas m => rw [accept_meas h, loadFrame_of_meas hd]
  | diag b => rw [accept_diag h, loadFrame_of_diag hd]

@[simp] theorem loadFrame_typ (r : Out) (f : Frame) : (r.loadFrame f).typ = typecode (frameByte f 6) := by
  cases h : decodeCore f with
  | meas m => simp [loadFrame_of_meas h]
  | diag b => simp [loadFrame_of_diag h]

@[simp] theorem loadFrame_typeRaw (r : Out) (f : Frame) : (r.loadFrame f).typeRaw = frameByte f 6 := by
  cases h : decodeCore f with
  | meas m => simp [loadFrame_of_meas h]
  | diag b => simp [loadFrame_of_diag h]

@[simp] theorem loadFrame_valid (r : Out) (f : Frame) : (r.loadFrame f).valid = isMeasured f := by
  cases h : decodeCore f with
  | meas m => simp [loadFrame_of_meas h, isMeasured_of_meas h]
  | diag b => simp [loadFrame_of_diag h, isMeasured_of_diag h]

@[simp] theorem loadFrame_diag (r : Out) (f : Frame) : (r.loadFrame f).diag = !isMeasured f := by
  cases h : decodeCore f with
  | meas m => simp [loadFrame_of_meas h, isMeasured_of_meas h]
  | diag b => simp [loadFrame_of_diag h, isMeasured_of_diag h]

@[simp] theorem loadFrame_fields (r : Out) (f : Frame) : fields (r.loadFrame f) = fieldsAfter f (fields r) := by
  cases h : decodeCore f with
  | meas m => simp [loadFrame_of_meas h, fieldsAfter, h]
  | diag b => simp [loadFrame_of_diag h, fieldsAfter, h]

/-- A measured frame's fields do not depend on those before it (R24). -/
theorem fieldsAfter_of_measured {f : Frame} (h : isMeasured f = true) (a b : Fields) :
    fieldsAfter f a = fieldsAfter f b := by
  obtain ⟨m, hm⟩ := isMeasured_eq_true.1 h
  simp only [fieldsAfter, hm]

/-- A frame of unknown type holds the fields (R31). -/
theorem fieldsAfter_of_not_measured {f : Frame} (h : isMeasured f = false) (a : Fields) : fieldsAfter f a = a := by
  cases hd : decodeCore f with
  | meas m => rw [isMeasured_of_meas hd] at h; cases h
  | diag b => simp only [fieldsAfter, hd]

/-! ## OUT after an edge -/

/-- OUT with both strobes at 0 (R30 case 4). -/
def Out.dropStrobes (r : Out) : Out := { r with valid := false, diag := false }

@[simp] theorem dropStrobes_valid (r : Out) : r.dropStrobes.valid = false := rfl
@[simp] theorem dropStrobes_diag (r : Out) : r.dropStrobes.diag = false := rfl
@[simp] theorem dropStrobes_typ (r : Out) : r.dropStrobes.typ = r.typ := rfl
@[simp] theorem dropStrobes_typeRaw (r : Out) : r.dropStrobes.typeRaw = r.typeRaw := rfl
@[simp] theorem dropStrobes_fields (r : Out) : fields r.dropStrobes = fields r := rfl

/-- OUT after an edge that keeps R266, once a reset has been seen: the four cases of R30. -/
def Out.afterEdge (r : Out) (e : EdgeInput) : Out :=
  if e.rst then Out.reset else if e.inValid then r.loadFrame e.inFrame else r.dropStrobes

theorem afterEdge_of_reset {e : EdgeInput} (h : e.rst = true) (r : Out) : r.afterEdge e = Out.reset := by
  simp [Out.afterEdge, h]

theorem afterEdge_of_frame {e : EdgeInput} (hr : e.rst = false) (hv : e.inValid = true) (r : Out) :
    r.afterEdge e = r.loadFrame e.inFrame := by
  simp [Out.afterEdge, hr, hv]

theorem afterEdge_of_idle {e : EdgeInput} (hr : e.rst = false) (hv : e.inValid = false) (r : Out) :
    r.afterEdge e = r.dropStrobes := by
  simp [Out.afterEdge, hr, hv]

/-- The state after an edge whose OUT is `Out.afterEdge`. -/
def State.afterEdge (s : State) : State :=
  { out := s.out.afterEdge s.ports, inputs := s.inputs.tail, draws := s.draws, resetSeen := true }

@[simp] theorem State.afterEdge_out (s : State) : s.afterEdge.out = s.out.afterEdge s.ports := rfl
@[simp] theorem State.afterEdge_inputs (s : State) : s.afterEdge.inputs = s.inputs.tail := rfl
@[simp] theorem State.afterEdge_draws (s : State) : s.afterEdge.draws = s.draws := rfl
@[simp] theorem State.afterEdge_resetSeen (s : State) : s.afterEdge.resetSeen = true := rfl

theorem idleEdge_eq (s : State) : idleEdge s = s.updateOut s.out.dropStrobes := rfl

/-- Once a reset has been seen, an edge that gives OUT the value `Out.afterEdge` leaves `State.afterEdge`. -/
theorem setOut_afterEdge {s : State} (h : s.resetSeen = true) :
    s.dropPorts.setOut (s.out.afterEdge s.ports) = s.afterEdge := by
  simp only [State.setOut, State.dropPorts, State.afterEdge, h]

/-- The step of a machine that has seen a reset edge, or whose next edge is one, at an edge that keeps R266. -/
theorem step_of_wellDriven {s : State} (hw : WellDriven s.ports)
    (hs : s.resetSeen = true ∨ s.ports.rst = true) : step s = .next s.afterEdge := by
  rcases step_cases s with ⟨c, e⟩ | ⟨f, c, -⟩ | ⟨c, -⟩ | ⟨c, e⟩
  · rw [e, State.afterEdge, afterEdge_of_reset ((edgeCase_eq_reset _).1 c)]
    rfl
  · obtain ⟨hr, hv, -, rfl⟩ := (edgeCase_eq_frame _ _).1 c
    have hseen : s.resetSeen = true := by simpa [hr] using hs
    rw [step_of_frame c, exec_decodeFrame (s := s.dropPorts) hseen, dropPorts_out, ← afterEdge_of_frame hr hv,
      setOut_afterEdge hseen]
  · exact absurd c (edgeCase_ne_unstable hw)
  · obtain ⟨hr, hv⟩ := (edgeCase_eq_idle _).1 c
    have hseen : s.resetSeen = true := by simpa [hr] using hs
    rw [e, idleEdge_eq, updateOut_of_seen (s := s.dropPorts) hseen, dropPorts_out, ← afterEdge_of_idle hr hv,
      setOut_afterEdge hseen]

/-- At an edge with no frame the strobes fall and the rest of the state holds (R30 case 4). -/
theorem step_of_idle {s : State} (hs : s.resetSeen = true) (hr : s.ports.rst = false) (hv : s.ports.inValid = false) :
    step s = .next { s with out := s.out.dropStrobes, inputs := s.inputs.tail } := by
  rw [step_of_wellDriven (.inr (.inl hv)) (.inl hs), State.afterEdge, afterEdge_of_idle hr hv, hs]

/-- Every edge completes and takes one listed edge off the list (R235, R265). -/
theorem step_completes (s : State) : ∃ t, step s = .next t ∧ t.inputs = s.inputs.tail := by
  rcases step_cases s with ⟨-, e⟩ | ⟨f, -, e⟩ | ⟨-, e⟩ | ⟨-, e⟩
  · exact ⟨_, e, rfl⟩
  · exact ⟨_, e, by simp⟩
  · exact ⟨_, e, rfl⟩
  · exact ⟨_, e, by simp [idleEdge]⟩

end Sys2Proof.Machine

namespace Sys2Proof.Safety

open Sys2Proof.Machine

/-! ## The invariant of the output stage -/

/-- At reset OUT is coherent: its fields are still as reset left them (R33). -/
theorem outInv_reset : OutInv Out.reset :=
  ⟨⟨by decide, by decide, by decide, by decide⟩, .inr ⟨rfl, rfl⟩⟩

theorem dpBits_toNat (p : PrintPattern) : (dpBits p).toNat = p.val := by
  revert p; decide

theorem aboveNine_eq_true (d : Byte) : aboveNine d = true ↔ 9 < d.toNat := decide_eq_true_iff

/-- The digit error is the one the lanes on `out_digits` show (R135). -/
theorem digitAboveNine_iff (o : Operands) :
    digitAboveNine o = true ↔ ∃ k, 9 < (digitLane (digitLanes o) k).toNat := by
  simp [digitLane_digitLanes, Fin.exists_fin_succ, digitAboveNine, aboveNine_eq_true, d0, d1, d2, d3, d4, digitChars,
    or_assoc]

/-- The value string is the one the coded fields stand for (R140, R142, R143). -/
theorem codedText_shown {t : MsgType} {o : Operands} {m : Measurement} (h : BuiltBy t o m) (v u : List Byte) :
    codedText (shown m v u) = valueText m o := by
  rcases h with ⟨p, c, rfl⟩ | ⟨k, c, hk, rfl⟩
  · change (if negFlag t o then [0x2D] else []) ++ (laneChars (digitLanes o)).take (dpBits p).toNat ++ [0x2E] ++
      (laneChars (digitLanes o)).drop (dpBits p).toNat = numericText (negFlag t o) p (digitChars o)
    rw [laneChars_digitLanes, dpBits_toNat]
    rfl
  · cases k with
    | numeric => exact absurd rfl hk
    | error => rfl
    | outOfRange => rfl
    | open_ => rfl
    | highRes => rfl
    | noDefault => rfl

theorem kindBits_toNat_le (k : Kind) : (kindBits k).toNat ≤ 5 := by
  cases k <;> decide

/-- The fields that show a measurement agree with each other, whichever constructor built it. -/
theorem coherent_shown {t : MsgType} {o : Operands} {m : Measurement} (h : BuiltBy t o m) :
    Coherent (shown m (valueText m o) (unitText m.unit)) where
  kind_code := kindBits_toNat_le m.kind
  dp_code := by
    change (dpBits m.dp).toNat ≤ 5
    have := m.dp.isLt
    rw [dpBits_toNat]
    omega
  unit_code := ⟨m.unit, rfl, rfl, unitText_ulen m.unit⟩
  only_numeric hk := by
    rcases builtBy_kind h with ⟨h0, -⟩ | ⟨-, k, u, -, rfl⟩
    · exact absurd h0 hk
    · exact ⟨rfl, rfl, rfl⟩
  digit_err hk := by
    rcases builtBy_kind h with ⟨-, p, u, rfl⟩ | ⟨hne, -⟩
    · exact digitAboveNine_iff o
    · exact absurd hk hne
  value_text := by rw [codedText_shown h]; rfl
  value_len := by rw [codedText_shown h]; exact valueText_vlen m o

/-- The strobes and the type code agree with the byte 6 that an accepted frame loads (R102, R234). -/
theorem typeCoherent_loadFrame (r : Out) (f : Frame) : TypeCoherent (r.loadFrame f) where
  not_both := by simp
  typ_code := by simpa using typecode_toNat (frameByte f 6)
  valid_known hv := by
    rw [loadFrame_valid] at hv
    obtain ⟨m, hm⟩ := isMeasured_eq_true.1 hv
    obtain ⟨t, hb, -⟩ := decodeCore_meas hm
    rw [loadFrame_typ, hb]
    exact typecode_typeByte_ne_zero t
  diag_unknown hd := by
    rw [loadFrame_diag, Bool.not_eq_true'] at hd
    rw [loadFrame_typ]
    cases h : decodeCore f with
    | meas m => rw [isMeasured_of_meas h] at hd; cases hd
    | diag b => exact typecode_of_classify_none (decodeCore_diag h).2

/-- An accepted frame shows a coherent measurement, or holds the fields and lowers `out_valid`. -/
theorem outInv_loadFrame {r : Out} (h : OutInv r) (f : Frame) : OutInv (r.loadFrame f) := by
  refine ⟨typeCoherent_loadFrame r f, ?_⟩
  cases hd : decodeCore f with
  | meas m =>
    obtain ⟨t, -, hm⟩ := decodeCore_meas hd
    rw [loadFrame_of_meas hd]
    exact .inl (coherent_shown hm)
  | diag b =>
    rw [loadFrame_fields, loadFrame_valid, fieldsAfter_of_not_measured (isMeasured_of_diag hd)]
    exact h.2.imp_right fun ⟨hf, _⟩ => ⟨hf, isMeasured_of_diag hd⟩

/-- Falling strobes keep the type code, and the fields they leave alone. -/
theorem outInv_dropStrobes {r : Out} (h : OutInv r) : OutInv r.dropStrobes := by
  obtain ⟨htype, hfields⟩ := h
  exact ⟨⟨by simp, htype.typ_code, by simp, by simp⟩, hfields.imp_right fun ⟨hf, _⟩ => ⟨hf, rfl⟩⟩

/-- An edge keeps OUT coherent, and a reset edge makes it so. -/
theorem outInv_afterEdge {r : Out} {e : EdgeInput} (h : e.rst = true ∨ OutInv r) : OutInv (r.afterEdge e) := by
  cases hr : e.rst with
  | true => rw [afterEdge_of_reset hr]; exact outInv_reset
  | false =>
    have hinv : OutInv r := by simpa [hr] using h
    cases hv : e.inValid with
    | true => rw [afterEdge_of_frame hr hv]; exact outInv_loadFrame hinv _
    | false => rw [afterEdge_of_idle hr hv]; exact outInv_dropStrobes hinv

/-- The edges still to come after a step are among those that were to come before it. -/
theorem inputsWellDriven_step {s t : State} (h : InputsWellDriven s) (ht : step s = .next t) : InputsWellDriven t := by
  obtain ⟨t', ht', hin⟩ := step_completes s
  obtain rfl : t' = t := by simpa [ht] using ht'.symm
  intro e he
  rw [hin] at he
  exact h e (List.mem_of_mem_tail he)

/-- The step lemma of the invariant. -/
theorem inv_step {s t : State} (h : Inv s) (ht : step s = .next t) : Inv t := by
  obtain ⟨hout, hin⟩ := h
  refine ⟨fun hseen => ?_, inputsWellDriven_step hin ht⟩
  have hs : s.ports.rst = true ∨ s.resetSeen = true := by simpa [step_resetSeen ht] using hseen
  rw [step_of_wellDriven (ports_wellDriven hin) hs.symm] at ht
  cases ht
  exact outInv_afterEdge (hs.imp_right hout)

/-! ## The last frame of a history -/

/-- The last frame accepted since the last reset that meets `p`; `lastAccepted` and `lastMeasured` are two of its cases. -/
def lastFrame (p : Frame → Bool) (h : List EdgeInput) : Option Frame :=
  (((sinceReset h).filterMap acceptedFrame).filter p).getLast?

theorem lastAccepted_eq (h : List EdgeInput) : lastAccepted h = lastFrame (fun _ => true) h := by
  simp [lastAccepted, lastFrame]

theorem lastMeasured_eq (h : List EdgeInput) : lastMeasured h = lastFrame isMeasured h := rfl

theorem acceptedFrame_of_reset {e : EdgeInput} (h : e.rst = true) : acceptedFrame e = none := by
  simp [acceptedFrame, h]

theorem acceptedFrame_of_frame {e : EdgeInput} (hr : e.rst = false) (hv : e.inValid = true) :
    acceptedFrame e = some e.inFrame := by
  simp [acceptedFrame, hr, hv]

theorem acceptedFrame_of_idle {e : EdgeInput} (h : e.inValid = false) : acceptedFrame e = none := by
  simp [acceptedFrame, h]

theorem sinceReset_concat_of_reset {e : EdgeInput} (he : e.rst = true) (h : List EdgeInput) :
    sinceReset (h ++ [e]) = [] := by
  simp [sinceReset, he]

theorem sinceReset_concat {e : EdgeInput} (he : e.rst = false) (h : List EdgeInput) :
    sinceReset (h ++ [e]) = sinceReset h ++ [e] := by
  simp [sinceReset, he]

theorem lastFrame_concat_of_reset {e : EdgeInput} (he : e.rst = true) (p : Frame → Bool) (h : List EdgeInput) :
    lastFrame p (h ++ [e]) = none := by
  simp [lastFrame, sinceReset_concat_of_reset he]

theorem lastFrame_concat_of_frame {e : EdgeInput} (hr : e.rst = false) (hv : e.inValid = true) (p : Frame → Bool)
    (h : List EdgeInput) :
    lastFrame p (h ++ [e]) = if p e.inFrame then some e.inFrame else lastFrame p h := by
  cases hp : p e.inFrame <;> simp [lastFrame, sinceReset_concat hr, acceptedFrame_of_frame hr hv, hp]

theorem lastFrame_concat_of_idle {e : EdgeInput} (hr : e.rst = false) (hv : e.inValid = false) (p : Frame → Bool)
    (h : List EdgeInput) : lastFrame p (h ++ [e]) = lastFrame p h := by
  simp [lastFrame, sinceReset_concat hr, acceptedFrame_of_idle hv]

/-! ## OUT after a history -/

/-- OUT after a history of edges that keep R266, one after another. -/
def outAfterHistory (r : Out) (h : List EdgeInput) : Out := h.foldl Out.afterEdge r

@[simp] theorem outAfterHistory_nil (r : Out) : outAfterHistory r [] = r := rfl

@[simp] theorem outAfterHistory_concat (r : Out) (h : List EdgeInput) (e : EdgeInput) :
    outAfterHistory r (h ++ [e]) = (outAfterHistory r h).afterEdge e := by
  simp [outAfterHistory]

/-- What a part of OUT is after a history, when a frame that meets `p` gives it a value of that frame's own and every
other frame and idle edge hold it: the value of the last such frame since the last reset, where there is none the reset
value, and without a reset what it was (R264, R267, R268). -/
theorem part_outAfterHistory {α : Type} (part : Out → α) (p : Frame → Bool) (value : Frame → α)
    (hframe : ∀ r f, part (r.loadFrame f) = if p f then value f else part r)
    (hidle : ∀ r : Out, part r.dropStrobes = part r) (r : Out) (h : List EdgeInput) :
    part (outAfterHistory r h) =
      ((lastFrame p h).map value).getD (if h.any (fun e => e.rst) then part Out.reset else part r) := by
  induction h using List.reverseRecOn with
  | nil => rfl
  | append_singleton h e ih =>
    rw [outAfterHistory_concat]
    cases hr : e.rst with
    | true => simp [afterEdge_of_reset hr, lastFrame_concat_of_reset hr, hr]
    | false =>
      cases hv : e.inValid with
      | true =>
        rw [afterEdge_of_frame hr hv, lastFrame_concat_of_frame hr hv, hframe, ih]
        cases hp : p e.inFrame <;> simp [hr]
      | false =>
        rw [afterEdge_of_idle hr hv, lastFrame_concat_of_idle hr hv, hidle, ih]
        simp [hr]

/-- `out_type_raw` is that of the last accepted frame (R102). -/
theorem typeRaw_outAfterHistory (r : Out) (h : List EdgeInput) :
    (outAfterHistory r h).typeRaw =
      ((lastAccepted h).map fun f => frameByte f 6).getD (if h.any (fun e => e.rst) then 0 else r.typeRaw) := by
  rw [lastAccepted_eq]
  exact part_outAfterHistory Out.typeRaw (fun _ => true) (fun f => frameByte f 6) loadFrame_typeRaw
    dropStrobes_typeRaw r h

/-- `out_type` is that of the last accepted frame (R102). -/
theorem typ_outAfterHistory (r : Out) (h : List EdgeInput) :
    (outAfterHistory r h).typ =
      ((lastAccepted h).map fun f => typecode (frameByte f 6)).getD (if h.any (fun e => e.rst) then 0 else r.typ) := by
  rw [lastAccepted_eq]
  exact part_outAfterHistory Out.typ (fun _ => true) (fun f => typecode (frameByte f 6)) loadFrame_typ
    dropStrobes_typ r h

/-- The measurement fields are those of the last measured frame; a measured frame forgets those before it, so any may
stand there. -/
theorem fields_outAfterHistory (r : Out) (h : List EdgeInput) (before : Fields) :
    fields (outAfterHistory r h) =
      ((lastMeasured h).map fun f => fieldsAfter f before).getD
        (if h.any (fun e => e.rst) then resetFields else fields r) := by
  refine part_outAfterHistory fields isMeasured _ (fun q f => ?_) dropStrobes_fields r h
  rw [loadFrame_fields]
  cases hm : isMeasured f with
  | true => exact fieldsAfter_of_measured hm _ _
  | false => exact fieldsAfter_of_not_measured hm _

/-- `out_valid` after an edge is 1 exactly when that edge accepts a measured frame (R30, R234). -/
theorem afterEdge_valid (r : Out) (e : EdgeInput) :
    (r.afterEdge e).valid = true ↔ ∃ f, acceptedFrame e = some f ∧ isMeasured f = true := by
  cases hr : e.rst with
  | true => simp [afterEdge_of_reset hr, acceptedFrame_of_reset hr, Out.reset]
  | false =>
    cases hv : e.inValid with
    | true => simp [afterEdge_of_frame hr hv, acceptedFrame_of_frame hr hv]
    | false => simp [afterEdge_of_idle hr hv, acceptedFrame_of_idle hv]

/-- `diag_valid` after an edge is 1 exactly when that edge accepts a frame of unknown type (R30, R234). -/
theorem afterEdge_diag (r : Out) (e : EdgeInput) :
    (r.afterEdge e).diag = true ↔ ∃ f, acceptedFrame e = some f ∧ isMeasured f = false := by
  cases hr : e.rst with
  | true => simp [afterEdge_of_reset hr, acceptedFrame_of_reset hr, Out.reset]
  | false =>
    cases hv : e.inValid with
    | true => simp [afterEdge_of_frame hr hv, acceptedFrame_of_frame hr hv]
    | false => simp [afterEdge_of_idle hr hv, acceptedFrame_of_idle hv]

/-! ## The run of a history -/

/-- One more edge at the end of a run. -/
theorem run_succ_of_run {k : Nat} {s t : State} (h : Sys2Proof.core.run k s = .next t) :
    Sys2Proof.core.run (k + 1) s = step t := by
  induction k generalizing s with
  | zero =>
    cases h
    obtain ⟨u, hu, -⟩ := step_completes t
    rw [run_succ 0 t u hu, hu]
    rfl
  | succ k ih =>
    obtain ⟨s', hs', -⟩ := step_completes s
    rw [run_succ k s s' hs'] at h
    rw [run_succ (k + 1) s s' hs', ih h]

/-- The state `t` that a history `h` leaves from `s`, with the edges `es` still to come: once a reset has been seen, at the
start or in `h`, OUT is `outAfterHistory`. -/
structure AfterHistory (s : State) (h es : List EdgeInput) (t : State) : Prop where
  inputs_eq : t.inputs = es
  resetSeen_eq : t.resetSeen = (s.resetSeen || h.any (fun e => e.rst))
  draws_eq : s.resetSeen = true → t.draws = s.draws
  out_eq : t.resetSeen = true → t.out = outAfterHistory s.out h

/-- One more edge of a history that keeps R266. -/
theorem AfterHistory.concat {s t : State} {h es : List EdgeInput} {e : EdgeInput} (ht : AfterHistory s h (e :: es) t)
    (he : WellDriven e) : ∃ u, step t = .next u ∧ AfterHistory s (h ++ [e]) es u := by
  have hports : t.ports = e := ports_of_inputs ht.inputs_eq
  by_cases hs : t.resetSeen = true ∨ e.rst = true
  · refine ⟨t.afterEdge, step_of_wellDriven (hports ▸ he) (hports ▸ hs), ?_, ?_, ht.draws_eq, fun _ => ?_⟩
    · simp [ht.inputs_eq]
    · refine Eq.symm ?_
      simpa [ht.resetSeen_eq, or_assoc] using hs
    · rw [outAfterHistory_concat, State.afterEdge_out, hports]
      rcases hs with hseen | hr
      · rw [ht.out_eq hseen]
      · rw [afterEdge_of_reset hr, afterEdge_of_reset hr]
  · obtain ⟨hseen, hr⟩ : t.resetSeen = false ∧ e.rst = false := by simpa using hs
    obtain ⟨hstart, hh⟩ : s.resetSeen = false ∧ h.any (fun e => e.rst) = false := by
      simpa only [hseen, Bool.false_eq, Bool.or_eq_false_iff] using ht.resetSeen_eq
    refine ⟨t.dropPorts.drawOut, step_of_unseen hseen (hports ▸ hr), ?_, ?_, ?_, ?_⟩
    · simp [ht.inputs_eq]
    · simp [hseen, hstart, hh, hr]
    · simp [hstart]
    · simp [hseen]

/-- A history of edges that keep R266 runs to its end from any start, and leaves the edges after it to come. -/
theorem run_history (s : State) (h es : List EdgeInput) (hw : ∀ e ∈ h, WellDriven e) :
    ∃ t, Sys2Proof.core.run h.length { s with inputs := h ++ es } = .next t ∧ AfterHistory s h es t := by
  induction h using List.reverseRecOn generalizing es with
  | nil => exact ⟨_, rfl, rfl, by simp, fun _ => rfl, fun _ => rfl⟩
  | append_singleton h e ih =>
    obtain ⟨t, hrun, ht⟩ := ih (e :: es) fun e' he' => hw e' (by simp [he'])
    obtain ⟨u, hu, hau⟩ := ht.concat (hw e (by simp))
    refine ⟨u, ?_, hau⟩
    rw [List.length_append, List.append_assoc]
    exact (run_succ_of_run hrun).trans hu

end Sys2Proof.Safety

namespace Sys2Proof.Proofs

open Sys2Proof.Machine Sys2Proof.Safety

/-- Settles O48, by the step lemma of the invariant: an edge is `Out.afterEdge`, which keeps OUT coherent. -/
theorem everyEdgeKeepsTheInvariant : Obligations.EveryEdgeKeepsTheInvariant :=
  fun _ _ hinv hstep => ⟨inv_step hinv hstep, by rw [step_resetSeen hstep, Bool.or_comm]⟩

/-- Settles O50: the history is run edge by edge to `outAfterHistory`, whose parts are those of the last frames. -/
theorem outShowsTheLastFramesOfItsHistory : Obligations.OutShowsTheLastFramesOfItsHistory := by
  intro s h hw hseen
  obtain ⟨t, hrun, ht⟩ := run_history s h [] hw
  have hreset : t.resetSeen = true := by simpa only [ht.resetSeen_eq, Bool.or_eq_true] using hseen
  have hout := ht.out_eq hreset
  have hraw := typeRaw_outAfterHistory s.out h
  have htyp := typ_outAfterHistory s.out h
  have hfields := fields_outAfterHistory s.out h (fields s.out)
  rw [← hout] at hraw htyp hfields
  rw [List.append_nil] at hrun
  refine ⟨t, hrun, ht.inputs_eq, hreset, ht.draws_eq, fun e he => ?strobes, fun f hf => ?accepted,
    fun hf => ?noneAccepted, fun f hf => ?measured, fun hf => ?noneMeasured⟩
  case strobes =>
    obtain ⟨h', rfl⟩ := List.getLast?_eq_some_iff.1 he
    rw [hout, outAfterHistory_concat]
    exact ⟨afterEdge_valid _ e, afterEdge_diag _ e⟩
  case accepted =>
    rw [hraw, htyp, hf]
    exact ⟨rfl, rfl⟩
  case noneAccepted =>
    rw [hraw, htyp, hf]
    exact ⟨rfl, rfl⟩
  case measured =>
    rw [hfields, hf]
    rfl
  case noneMeasured =>
    rw [hfields, hf]
    rfl

/-- Settles O17: the step is `Out.afterEdge`, case by case of R30. -/
theorem everyEdgeUpdatesOutByTheFirstCase : Obligations.EveryEdgeUpdatesOutByTheFirstCase := by
  intro s hw hs
  refine ⟨s.afterEdge, step_of_wellDriven hw hs, rfl, fun hr => ?reset, fun hr hv => ?frame, fun hr hv => ?idle⟩
  case reset =>
    rw [State.afterEdge_out, afterEdge_of_reset hr]
    exact ⟨rfl, rfl, rfl, rfl, rfl⟩
  case frame =>
    rw [State.afterEdge_out, afterEdge_of_frame hr hv]
    refine ⟨loadFrame_typ _ _, loadFrame_typeRaw _ _, fun m hm => ?_, fun b hb => ?_⟩
    · rw [loadFrame_of_meas hm]
      exact ⟨rfl, rfl, rfl⟩
    · rw [loadFrame_of_diag hb]
      exact ⟨(decodeCore_diag hb).1, rfl, rfl, rfl⟩
  case idle =>
    rw [State.afterEdge_out, afterEdge_of_idle hr hv]
    exact ⟨rfl, rfl, rfl, rfl, rfl⟩

/-- Settles O43: every instruction is one `accept`, and a frame of unknown type holds the measurement fields. -/
theorem nothingButOutChanges : Obligations.NothingButOutChanges := by
  intro i s t ht
  rw [exec_eq_accept] at ht
  cases ht
  refine ⟨accept_inputs _ _ _ s, accept_resetSeen _ _ _ s, fun hs => ⟨accept_draws hs _ _ _, fun hty => ?_⟩⟩
  rcases resultOf_cases i with ⟨ty, m, hsome, -⟩ | ⟨b, o, -, hr⟩
  · rw [hty] at hsome
    cases hsome
  · rw [hr, accept_diag hs]
    rfl

/-- Settles O44: a measurement writes every field of OUT, so the OUT it gives over the reset values is the one it gives
over any. -/
theorem measuredFrameForgetsOut : Obligations.MeasuredFrameForgetsOut := by
  intro f hf
  obtain ⟨m, hm⟩ := isMeasured_eq_true.1 hf
  refine ⟨Out.reset.loadFrame f, fun s hs => ?_⟩
  rw [exec_decodeFrame hs, loadFrame_of_meas hm, loadFrame_of_meas hm, loadMeas_loadType_forgets s.out Out.reset]
  rfl

/-- Settles O8: such an edge is the frame case of R30. -/
theorem stepRunsTheDecodedFrame : Obligations.StepRunsTheDecodedFrame := by
  intro s e es hi hr hv hst
  have hcase : edgeCase s.ports = .frame e.inFrame := by
    rw [ports_of_inputs hi]
    exact (edgeCase_eq_frame e _).2 ⟨hr, hv, hst, rfl⟩
  rw [step_of_frame hcase, dropPorts_of_inputs hi]

/-- Settles O9: the presented table word is a stable frame, and its edge leaves the list as it was. -/
theorem fetchedWordRunsNext : Obligations.FetchedWordRunsNext := by
  intro s n w _ hw
  rw [← tableFrame_of_lt hw]
  exact stepRunsTheDecodedFrame (s.withFetchWord n w) (presentFrame (tableFrame n w)) s.inputs rfl rfl rfl rfl

/-- Settles O14: the idle case of R30 at a listed edge. -/
theorem idleEdgeHoldsTheData : Obligations.IdleEdgeHoldsTheData := by
  intro s e es hi hs hr hv
  rw [← ports_of_inputs hi] at hr hv
  rw [step_of_idle hs hr hv, hi]
  rfl

/-- Settles O15: past the list the ports are quiet, so the edge is an idle one. -/
theorem unlistedEdgeIsIdle : Obligations.UnlistedEdgeIsIdle := by
  intro s hi hs
  have hports := ports_of_nil hi
  rw [step_of_idle hs (by rw [hports]; rfl) (by rw [hports]; rfl), hi, List.tail_nil, ← hi]
  rfl

/-- Settles O47: reset leaves OUT coherent, and at power-on no reset has been seen. -/
theorem resetMeetsTheInvariant : Obligations.ResetMeetsTheInvariant := by
  refine ⟨outInv_reset, ⟨fun _ => outInv_reset, ?_⟩, fun es hw => ⟨⟨fun _ => outInv_reset, hw⟩, ?_, hw⟩⟩
  · exact List.forall_mem_nil _
  · intro hseen
    cases hseen

end Sys2Proof.Proofs
end

section
/-! PROOFS. The byte-list decoder (20_memory.md R54; 30_encoding.md R79). A list of eleven bytes is the frame that packs
it, so what holds of every frame on the bus holds of it; every other list falls to the decoder's refusal (log 8). -/

namespace Sys2Proof

/-- Packing eleven bytes onto the bus loses none of them (R52). -/
theorem frameBytes_packBytes {bs : List Byte} (h : bs.length = 11) : frameBytes (packBytes 88 bs) = bs := by
  have hbyte : ∀ k : Fin 11, frameByte (packBytes 88 bs) k = bs.getD k.val 0 := fun k =>
    extract_packBytes 88 bs k.val (by omega)
  simp only [frameBytes, hbyte]
  refine List.ext_getElem h.symm fun n hn _ => ?_
  change n < 11 at hn
  interval_cases n <;> exact (List.getElem_eq_getD 0).symm

/-- Every byte of a frame is kept by its instruction, the reserved ones and an unknown byte 6 too (R75). -/
theorem encode_decodeFrame (f : Frame) : encode (decodeFrame f) = frameBytes f := by
  simp only [encode, Machine.opcodeByte_decodeFrame, Machine.operands_decodeFrame]
  rfl

/-- On eleven bytes the byte decoder is the bus decoder of the frame they pack to. -/
theorem decode_of_length_eq {bs : List Byte} (h : bs.length = 11) :
    decode bs = .ok (decodeFrame (packBytes 88 bs)) := by
  rw [← decode_frameBytes, frameBytes_packBytes h]

theorem decode_of_length_ne {bs : List Byte} (h : bs.length ≠ 11) : decode bs = .error (.frameLength bs.length) := by
  unfold decode
  split
  · exact absurd rfl h
  · rfl

end Sys2Proof

namespace Sys2Proof.Proofs

/-- Settles O3: eleven bytes decode as the frame they pack to, which keeps them all. -/
theorem onlyElevenBytesDecode : Obligations.OnlyElevenBytesDecode :=
  fun bs => ⟨fun h => ⟨decodeFrame (packBytes 88 bs), decode_of_length_eq h,
    (encode_decodeFrame _).trans (frameBytes_packBytes h)⟩, decode_of_length_ne⟩

end Sys2Proof.Proofs
end

section
/-! PROOFS. Decoding and encoding (20_memory.md R52; 30_encoding.md R70, R75, R80, R86): they are inverses between the
well-formed instructions and the 2^88 frames, and the opcode table selects the type that the classifier does. -/

namespace Sys2Proof

open Sys2Proof.Machine

/-! ## Decoding what was encoded -/

/-- Byte 6 of a well-formed instruction's frame classifies to the instruction's own type (R80). -/
theorem classify_opcodeByte {i : Instr} (h : i.wf = true) : classify (opcodeByte i) = i.msgType := by
  cases i with
  | unknown b o => exact (classify_eq_none b).2 h
  | _ => exact classify_typeByte _

/-- An instruction is its byte 6, its operands and its type. -/
theorem instrOf_opcodeByte (i : Instr) : instrOf (opcodeByte i) i.operands i.msgType = i := by
  cases i <;> rfl

/-- Decoding undoes encoding on the well-formed instructions (R70, R80). -/
theorem decode_encode {i : Instr} (h : i.wf = true) : decode (encode i) = .ok i := by
  change Except.ok (instrOf (opcodeByte i) i.operands (classify (opcodeByte i))) = _
  rw [classify_opcodeByte h, instrOf_opcodeByte]

theorem frameBytes_encodeFrame (i : Instr) : frameBytes (encodeFrame i) = encode i :=
  frameBytes_packBytes rfl

/-- The same over the bus (R52). -/
theorem decodeFrame_encodeFrame {i : Instr} (h : i.wf = true) : decodeFrame (encodeFrame i) = i := by
  have hdecode := decode_encode h
  rw [← frameBytes_encodeFrame, decode_frameBytes] at hdecode
  exact Except.ok.inj hdecode

/-- A frame's number is its own table word (R86). -/
theorem tableFrame_toNat (f : Frame) : tableFrame 88 f.toNat = f := by
  rw [tableFrame_of_lt f.isLt, BitVec.ofNat_toNat, BitVec.setWidth_eq]

/-- A table word decodes as the frame it numbers (R86). -/
theorem decodeTableWord_toNat (f : Frame) : decodeTableWord 88 f.toNat = some (decodeFrame f) := by
  simp only [decodeTableWord, tableFrame_toNat, decode_frameBytes]

/-! ## Encoding what was decoded -/

/-- The classifier's answer makes a well-formed instruction: UNKNOWN is answered outside 0x31..0x3D only (R103). -/
theorem wf_instrOf_classify (b : Byte) (o : Operands) : (instrOf b o (classify b)).wf = true := by
  cases h : classify b with
  | none => exact (classify_eq_none b).1 h
  | some t => cases t <;> rfl

theorem wf_decodeFrame (f : Frame) : (decodeFrame f).wf = true :=
  wf_instrOf_classify _ _

/-- Packing a frame's eleven bytes gives the frame back: they cover all 88 bits (R52). -/
theorem packBytes_frameBytes (f : Frame) : packBytes 88 (frameBytes f) = f := by
  refine eq_of_busBytes (n := 11) _ _ fun k hk => ?_
  rw [busByte_packBytes 88 _ k (by omega)]
  interval_cases k <;> rfl

/-- Encoding undoes decoding on every frame, so no bit is dropped (R75). -/
theorem encodeFrame_decodeFrame (f : Frame) : encodeFrame (decodeFrame f) = f := by
  rw [encodeFrame, encode_decodeFrame, packBytes_frameBytes]

/-! ## The opcode table -/

/-- The thirteen types in the order of the table (R80). -/
def msgTypes : List MsgType :=
  [.dcv, .acv, .mv, .ohm, .cap, .tempc, .ua, .ma, .amp, .beep, .diode, .freq, .tempf]

/-- The row of a type, or of UNKNOWN: the mask covers byte 6, and the pattern holds the type's byte there (R86). -/
def tableRow : Option MsgType → OpcodeRow
  | some t => ⟨some t, (0xFF : Frame) <<< 48, (typeByte t).setWidth 88 <<< 48⟩
  | none => ⟨none, 0, 0⟩

@[simp] theorem tableRow_msgType (c : Option MsgType) : (tableRow c).msgType = c := by
  cases c <;> rfl

theorem opcodeTable_eq : opcodeTable = (msgTypes.map fun t => tableRow (some t)) ++ [tableRow none] := by
  decide

/-- The mask of a type row is bits 55:48 (R86). -/
theorem getLsbD_typeMask : ∀ n < 88, ((0xFF : Frame) <<< 48).getLsbD n = (decide (48 ≤ n) && decide (n < 56)) := by
  decide

/-- The bits under the mask of a type row are byte 6, in its place. -/
theorem and_typeMask (f : Frame) : f &&& (0xFF : Frame) <<< 48 = (frameByte f 6).setWidth 88 <<< 48 := by
  refine BitVec.eq_of_getLsbD_eq fun n hn => ?_
  rw [BitVec.getLsbD_and, getLsbD_typeMask n hn, BitVec.getLsbD_shiftLeft, BitVec.getLsbD_setWidth, frameByte,
    BitVec.getLsbD_extractLsb']
  rcases Nat.lt_or_ge n 48 with hlow | hhigh
  · simp [hlow]
  · have hback : 48 + (n - 48) = n := by omega
    have hin : n - 48 < 8 ↔ n < 56 := by omega
    have hbus : n - 48 < 88 := by omega
    simp [hhigh, hback, hin, hbus, hn, Bool.and_comm]

/-- Two bytes in the place of byte 6 agree only when they are the same byte. -/
theorem setWidth_shiftLeft_inj {a b : Byte} (h : a.setWidth 88 <<< 48 = b.setWidth 88 <<< 48) : a = b := by
  refine BitVec.eq_of_getLsbD_eq fun n hn => ?_
  have hbit := congrArg (fun f : Frame => f.getLsbD (n + 48)) h
  have hin : n + 48 < 88 := by omega
  have hn88 : n < 88 := by omega
  simpa [hin, hn88] using hbit

/-- The row of a type matches exactly the frames with that type's byte 6 (R86). -/
theorem matchesFrame_tableRow_some (f : Frame) (t : MsgType) :
    (tableRow (some t)).matchesFrame f = (frameByte f 6 == typeByte t) := by
  rw [Bool.eq_iff_iff, beq_iff_eq, OpcodeRow.matchesFrame, beq_iff_eq]
  change f &&& (0xFF : Frame) <<< 48 = (typeByte t).setWidth 88 <<< 48 ↔ _
  rw [and_typeMask]
  exact ⟨setWidth_shiftLeft_inj, fun h => by rw [h]⟩

/-- The UNKNOWN row matches every frame (R86). -/
theorem matchesFrame_tableRow_none (f : Frame) : (tableRow none).matchesFrame f = true := by
  simp [OpcodeRow.matchesFrame, tableRow]

/-- Searching the types in table order for a byte is classifying it. -/
theorem find?_typeByte (b : Byte) : msgTypes.find? (fun t => b == typeByte t) = classify b := by
  revert b; decide

/-- The first row that matches is the row of the type that byte 6 classifies to (R86). -/
theorem firstRow_eq (f : Frame) : firstRow f = some (tableRow (classify (frameByte f 6))) := by
  have htypes : (fun r : OpcodeRow => r.matchesFrame f) ∘ (fun t => tableRow (some t)) =
      fun t => frameByte f 6 == typeByte t := funext fun t => matchesFrame_tableRow_some f t
  have hunknown : [tableRow none].find? (fun r => r.matchesFrame f) = some (tableRow none) :=
    List.find?_cons_of_pos (matchesFrame_tableRow_none f)
  rw [firstRow, opcodeTable_eq, List.find?_append, List.find?_map, htypes, find?_typeByte, hunknown]
  cases classify (frameByte f 6) <;> rfl

theorem unknownTypeByte_eq_true (b : Byte) : unknownTypeByte b = true ↔ b.toNat < 0x31 ∨ 0x3D < b.toNat := by
  simp [unknownTypeByte]

/-! ## The reserved bytes -/

/-- The operands with the reserved bytes 7, 9 and 10 at 0. -/
def Operands.eraseReserved (o : Operands) : Operands := { o with f7 := 0, f9 := 0, f10 := 0 }

/-- Frames that agree outside bytes 7, 9 and 10 have the same operands once those are erased. -/
theorem eraseReserved_frameOperands_congr {f g : Frame}
    (h : ∀ k : Fin 11, k ≠ 7 → k ≠ 9 → k ≠ 10 → frameByte f k = frameByte g k) :
    (frameOperands f).eraseReserved = (frameOperands g).eraseReserved := by
  simp (disch := decide) only [Operands.eraseReserved, frameOperands, h]

end Sys2Proof

namespace Sys2Proof.Machine

/-- No handler reads a reserved byte (R76). -/
theorem resultOf_instrOf_eraseReserved (b : Byte) (o : Operands) (c : Option MsgType) :
    resultOf (instrOf b o.eraseReserved c) = resultOf (instrOf b o c) := by
  cases c with
  | none => rfl
  | some t => cases t <;> rfl

/-- Nor does the update of OUT (R76). -/
theorem accept_eraseReserved (f6 : Byte) (o : Operands) (res : Result) (s : State) :
    accept f6 o.eraseReserved res s = accept f6 o res s := by
  cases res <;> rfl

theorem decodeCore_eq_eraseReserved (f : Frame) :
    decodeCore f =
      resultOf (instrOf (frameByte f 6) (frameOperands f).eraseReserved (classify (frameByte f 6))) :=
  (resultOf_instrOf_eraseReserved _ _ _).symm

theorem exec_decodeFrame_eq_eraseReserved (f : Frame) (s : State) :
    exec (decodeFrame f) s =
      .next (accept (frameByte f 6) (frameOperands f).eraseReserved (decodeCore f) s) := by
  rw [exec_eq_accept, opcodeByte_decodeFrame, operands_decodeFrame, accept_eraseReserved]
  rfl

/-! ## The unit codes -/

theorem unitBits_toNat_le (u : UnitCode) : (unitBits u).toNat ≤ 16 := by
  cases u <;> decide

/-- After a reset an instruction of a type loads a measurement (R30 case 2). -/
theorem exec_of_msgType {s : State} (hs : s.resetSeen = true) {i : Instr} {t : MsgType} (hi : i.msgType = some t) :
    ∃ m, resultOf i = .meas m ∧
      exec i s = .next (s.setOut ((s.out.loadType (opcodeByte i)).loadMeas m i.operands)) := by
  rcases resultOf_cases i with ⟨_, m, -, -, hr, -⟩ | ⟨b, o, rfl, -⟩
  · exact ⟨m, hr, by rw [exec_eq_accept, hr, accept_meas hs]⟩
  · cases hi

end Sys2Proof.Machine

namespace Sys2Proof.Proofs

open Sys2Proof.Machine

/-- Settles O1: byte 6 classifies to the instruction's type and the other bytes are its operands, over the bytes, the
bus and the table word. -/
theorem decodeOfEncodeIsTheInstruction : Obligations.DecodeOfEncodeIsTheInstruction :=
  fun i h => ⟨decode_encode h, decodeFrame_encodeFrame h, by rw [decodeTableWord_toNat, decodeFrame_encodeFrame h]⟩

/-- Settles O2: the decoder keeps all eleven bytes, and they are the whole frame. -/
theorem encodeOfDecodeIsTheFrame : Obligations.EncodeOfDecodeIsTheFrame :=
  fun f => ⟨wf_decodeFrame f, encodeFrame_decodeFrame f, encode_decodeFrame f⟩

/-- Settles O4: a type row compares byte 6 with the type's byte, so the first row that matches is the classifier's. -/
theorem firstMatchingRowIsTheDecodedType : Obligations.FirstMatchingRowIsTheDecodedType := by
  refine ⟨rfl, fun r hr t ht => ?typeRow, rfl, fun f => ⟨_, firstRow_eq f, ?decoded, ?unknown⟩⟩
  case typeRow =>
    obtain ⟨c, rfl⟩ : ∃ c, tableRow c = r := by
      rw [opcodeTable_eq, List.mem_append, List.mem_map, List.mem_singleton] at hr
      obtain ⟨t', -, h⟩ | h := hr
      · exact ⟨_, h⟩
      · exact ⟨none, h.symm⟩
    obtain rfl : c = some t := (tableRow_msgType c).symm.trans ht
    exact ⟨rfl, rfl⟩
  case decoded =>
    obtain ⟨-, -, htype⟩ := decodeFrame_spec f
    rw [tableRow_msgType, htype]
  case unknown => rw [tableRow_msgType, classify_eq_none, unknownTypeByte_eq_true]

/-- Settles O36: the result and the update of OUT are those of the operands with the reserved bytes erased, which the
two frames share. -/
theorem reservedBytesChangeNoOutput : Obligations.ReservedBytesChangeNoOutput := by
  intro f g s h
  have hsix : frameByte f 6 = frameByte g 6 := h 6 (by decide) (by decide) (by decide)
  have hoperands := eraseReserved_frameOperands_congr h
  have hcore : decodeCore f = decodeCore g := by
    rw [decodeCore_eq_eraseReserved, decodeCore_eq_eraseReserved, hsix, hoperands]
  refine ⟨hcore, _, exec_decodeFrame_eq_eraseReserved f s, ?_⟩
  rw [exec_decodeFrame_eq_eraseReserved, hsix, hoperands, hcore]

/-- Settles O42: the table is read off `unitBits` and `unitText`, and an instruction of a type loads the code of its
measurement's unit. -/
theorem unitCodesAndStringsAreExact : Obligations.UnitCodesAndStringsAreExact := by
  refine ⟨mem_allUnits, by decide, by decide, fun i s ty hs hi => ?_⟩
  obtain ⟨m, -, hexec⟩ := exec_of_msgType hs hi
  exact ⟨_, hexec, unitBits_toNat_le m.unit⟩

/-- Settles O5: each word is closed, so the decoder is run on it. -/
theorem specWordsDecode : Obligations.SpecWordsDecode := by
  unfold Obligations.SpecWordsDecode
  decide

end Sys2Proof.Proofs
end

section
/-! PROOFS. The classifier (40_classifier.md R100 to R105). Byte 6 alone says whether DECODE answers a measurement, and
which type code OUT is loaded with. -/

namespace Sys2Proof.Machine

open Sys2Proof.Safety

/-- The classifier answers no type exactly outside 0x31..0x3D (R103). -/
theorem classify_eq_none_iff_outside (b : Byte) : classify b = none ↔ b.toNat < 0x31 ∨ 0x3D < b.toNat := by
  rw [classify_eq_none, unknownTypeByte_eq_true]

/-- DECODE measures exactly the frames whose byte 6 selects a type (R101, R103). -/
theorem isMeasured_eq_isSome_classify (f : Frame) : isMeasured f = (classify (frameByte f 6)).isSome := by
  cases h : decodeCore f with
  | meas m =>
    obtain ⟨t, hbyte, -⟩ := decodeCore_meas h
    rw [isMeasured_of_meas h, hbyte, classify_typeByte, Option.isSome_some]
  | diag b =>
    obtain ⟨-, hnone⟩ := decodeCore_diag h
    rw [isMeasured_of_diag h, hnone, Option.isSome_none]

theorem isMeasured_eq_false_iff_outside (f : Frame) :
    isMeasured f = false ↔ (frameByte f 6).toNat < 0x31 ∨ 0x3D < (frameByte f 6).toNat := by
  rw [isMeasured_eq_isSome_classify, Option.isSome_eq_false_iff, Option.isNone_iff_eq_none,
    classify_eq_none_iff_outside]

/-- A frame whose byte 6 selects no type is the UNKNOWN instruction of its bytes (R103). -/
theorem decodeFrame_of_classify_none {f : Frame} (h : classify (frameByte f 6) = none) :
    decodeFrame f = .unknown (frameByte f 6) (frameOperands f) := by
  rw [decodeFrame, h, instrOf]

/-- After a reset an UNKNOWN instruction loads the diagnostic over the OUT it finds (R103, R30 case 3). -/
theorem exec_unknown {s : State} (hs : s.resetSeen = true) (f6 : Byte) (o : Operands) :
    exec (.unknown f6 o) s = .next (s.setOut (s.out.loadType f6).loadDiag) := by
  rw [exec_eq_accept, resultOf, accept_diag hs, opcodeByte]

/-- An edge accepts a frame exactly without reset and with `in_valid` (R30). -/
theorem acceptedFrame_eq_some (e : EdgeInput) (f : Frame) :
    acceptedFrame e = some f ↔ e.rst = false ∧ e.inValid = true ∧ e.inFrame = f := by
  simp [acceptedFrame, and_assoc]

/-- The type code is the lane of byte 6, `b - 0x30` modulo 256, where that is in 1..13 (R102, R120). -/
theorem typecode_toNat_eq_lane (b : Byte) :
    (typecode b).toNat =
      if 1 ≤ (b.toNat + 208) % 256 ∧ (b.toNat + 208) % 256 ≤ 13 then (b.toNat + 208) % 256 else 0 := by
  have hbyte := b.isLt
  rw [typecode_toNat]
  split <;> split <;> omega

/-- The codes above 13 are never loaded (R102). -/
theorem typecode_ne_of_thirteen_lt {c : BitVec 4} (hc : 13 < c.toNat) (b : Byte) : typecode b ≠ c := by
  rintro rfl
  rw [typecode_toNat_eq_lane] at hc
  split at hc <;> omega

end Sys2Proof.Machine

namespace Sys2Proof.Proofs

open Sys2Proof.Machine Sys2Proof.Safety

/-- Settles O29: outside 0x31..0x3D the classifier answers no type, so the frame is UNKNOWN; and `diag_valid` is set
only by an edge that accepts a frame which is not measured. -/
theorem unknownTypesAreDiagnosedOnly : Obligations.UnknownTypesAreDiagnosedOnly := by
  refine ⟨fun f hout => ?decoded, fun f hlow hhigh => ?measured, fun f6 o s hs hout => ?executed,
    fun s hw hs => ⟨s.afterEdge, step_of_wellDriven hw hs, ?strobe⟩⟩
  case decoded =>
    have hdec := decodeFrame_of_classify_none ((classify_eq_none_iff_outside _).2 hout)
    exact ⟨hdec, by rw [decodeCore, hdec, resultOf]⟩
  case measured =>
    rw [← isMeasured_eq_true, ← Bool.not_eq_false, isMeasured_eq_false_iff_outside]
    omega
  case executed =>
    have hcode : typecode f6 = 0 := typecode_of_classify_none ((classify_eq_none_iff_outside _).2 hout)
    rw [exec_unknown hs, Out.loadType, hcode]
    rfl
  case strobe =>
    rw [State.afterEdge_out, afterEdge_diag]
    simp only [acceptedFrame_eq_some, isMeasured_eq_false_iff_outside, and_assoc, exists_and_left, exists_eq_left']

/-- Settles O30: a frame loads `typecode` of its byte 6, which is at most 13. -/
theorem everyFrameLoadsItsTypeCode : Obligations.EveryFrameLoadsItsTypeCode := by
  intro f s hs
  refine ⟨_, exec_decodeFrame hs f, ?_⟩
  rw [setOut_out, loadFrame_typeRaw, loadFrame_typ]
  exact ⟨rfl, typecode_toNat_eq_lane _, typecode_ne_of_thirteen_lt (by decide) _,
    typecode_ne_of_thirteen_lt (by decide) _⟩

/-- Settles O31: the type and the four registers are functions of byte 6, which the two frames share. -/
theorem classificationDependsOnByteSixOnly : Obligations.ClassificationDependsOnByteSixOnly := by
  intro f g s r hsix
  have hmeasured : isMeasured f = isMeasured g := by
    rw [isMeasured_eq_isSome_classify, isMeasured_eq_isSome_classify, hsix]
  obtain ⟨-, -, hf⟩ := decodeFrame_spec f
  obtain ⟨-, -, hg⟩ := decodeFrame_spec g
  refine ⟨by rw [hf, hg, hsix], fun hs hr => ⟨_, _, exec_decodeFrame hs f, exec_decodeFrame hr g, ?_⟩⟩
  simp only [setOut_out, loadFrame_valid, loadFrame_diag, loadFrame_typ, loadFrame_typeRaw, hmeasured, hsix, and_self]

end Sys2Proof.Proofs
end

section
/-! PROOFS. Extraction and assembly (41_extraction_assembly.md). A lane is its byte less BASE modulo 256; a NUMERIC
value alone has a sign and a digit error; and the text ports hold the value and unit strings. -/

namespace Sys2Proof

/-! ## Lanes -/

/-- The lane without the modulus of R120: below BASE the subtraction borrows. -/
theorem lane_toNat (b : Byte) :
    (lane b).toNat = if 0x30 ≤ b.toNat then b.toNat - 0x30 else b.toNat + 208 := by
  have hb := b.isLt
  have hlane : (lane b).toNat = (b.toNat + 208) % 256 := by
    simp [lane, base, BitVec.toNat_sub, Nat.add_comm]
  rw [hlane]
  split <;> omega

/-- A byte of a port that packs `bs` is the byte of `bs` there, and 0x00 above its last (R52, R144, R145). -/
theorem busByte_packBytes_padded (w : Nat) (bs : List Byte) (k : Nat) (h : 8 * k + 8 ≤ w) :
    Safety.busByte (packBytes w bs) k = if k < bs.length then bs.getD k 0 else 0 := by
  rw [busByte_packBytes w bs k h]
  split
  · rfl
  · next hk => exact List.getD_eq_default bs 0 (Nat.le_of_not_lt hk)

/-- The operands with the sign byte at 0. -/
def Operands.eraseSign (o : Operands) : Operands := { o with f8 := 0 }

/-- Frames that agree outside byte 8 have the same operands once the sign byte is erased. -/
theorem eraseSign_frameOperands_congr {f g : Frame} (h : ∀ k : Fin 11, k ≠ 8 → frameByte f k = frameByte g k) :
    (frameOperands f).eraseSign = (frameOperands g).eraseSign := by
  simp (disch := decide) only [Operands.eraseSign, frameOperands, h]

end Sys2Proof

namespace Sys2Proof.Machine

open Sys2Proof.Safety

/-! ## The sign and digit flags -/

/-- The sign decoder over bytes (R125). -/
theorem negFlag_eq_true (t : MsgType) (o : Operands) :
    negFlag t o = true ↔
      (t = .dcv ∧ o.f8 = 0x35) ∨ (t ∈ [MsgType.mv, .ua, .ma, .amp] ∧ o.f8 = 0x34) := by
  have hfive : (5 : Byte) = lane o.f8 ↔ o.f8 = 0x35 := eq_comm.trans (lane_eq_five o.f8)
  have hfour : (4 : Byte) = lane o.f8 ↔ o.f8 = 0x34 := eq_comm.trans (lane_eq_four o.f8)
  cases t with
  | dcv => simpa [negFlag, negVal, sgn] using hfive
  | mv | ua | ma | amp => simpa [negFlag, negVal, sgn] using hfour
  | _ => simp [negFlag, negVal]

/-- The eight types without a negative value (R127). -/
theorem negVal_eq_none : ∀ t ∈ [MsgType.acv, .ohm, .cap, .tempc, .beep, .diode, .freq, .tempf], negVal t = none := by
  decide

/-- A type without a negative value has no sign flag (R127). -/
theorem negFlag_of_unsigned {t : MsgType} (h : negVal t = none) (o : Operands) : negFlag t o = false := by
  rw [negFlag, h]
  rfl

/-- A handler of a type without a negative value does not read the sign byte (R127). -/
theorem resultOf_instrOf_eraseSign {t : MsgType} (h : negVal t = none) (b : Byte) (o : Operands) :
    resultOf (instrOf b o.eraseSign (some t)) = resultOf (instrOf b o (some t)) := by
  cases t with
  | dcv | mv | ua | ma | amp => cases h
  | _ => rfl

/-- The update of OUT does not read it either (R127). -/
theorem accept_eraseSign (f6 : Byte) (o : Operands) (res : Result) (s : State) :
    accept f6 o.eraseSign res s = accept f6 o res s := by
  cases res <;> rfl

/-- The sign is applied to a NUMERIC result only (R126). -/
theorem builtBy_neg {t : MsgType} {o : Operands} {m : Measurement} (h : BuiltBy t o m) :
    m.neg = true ↔ kindBits m.kind = 0 ∧ negFlag t o = true := by
  obtain ⟨hkind, p, u, rfl⟩ | ⟨hkind, k, u, -, rfl⟩ := builtBy_kind h
  · exact (and_iff_right hkind).symm
  · exact iff_of_false Bool.false_ne_true fun ⟨hnumeric, _⟩ => hkind hnumeric

/-- A digit error is of a NUMERIC result only (R135). -/
theorem builtBy_digitErr {t : MsgType} {o : Operands} {m : Measurement} (h : BuiltBy t o m) :
    m.digitErr = true ↔ kindBits m.kind = 0 ∧ anyNotDigit o = true := by
  obtain ⟨hkind, p, u, rfl⟩ | ⟨hkind, k, u, -, rfl⟩ := builtBy_kind h
  · rw [num_digitErr, digitAboveNine_eq, and_iff_right hkind]
  · exact iff_of_false Bool.false_ne_true fun ⟨hnumeric, _⟩ => hkind hnumeric

theorem anyNotDigit_eq_true (o : Operands) :
    anyNotDigit o = true ↔ ∃ b ∈ digitChars o, b.toNat < 0x30 ∨ 0x39 < b.toNat := by
  simp [anyNotDigit, notDigit, digitChars, or_assoc]

theorem anyNotDigit_eq_false (o : Operands) :
    anyNotDigit o = false ↔ ∀ b ∈ digitChars o, 0x30 ≤ b.toNat ∧ b.toNat ≤ 0x39 := by
  rw [← Bool.not_eq_true, anyNotDigit_eq_true]
  simp only [not_exists, not_and, not_or, Nat.not_lt]

/-! ## The value string -/

theorem valueText_of_numeric {m : Measurement} (h : m.kind = .numeric) (o : Operands) :
    valueText m o = numericText m.neg m.dp (digitChars o) := by rw [valueText, h]

theorem valueText_of_error {m : Measurement} (h : m.kind = .error) (o : Operands) :
    valueText m o = textError := by rw [valueText, h]

theorem valueText_of_outOfRange {m : Measurement} (h : m.kind = .outOfRange) (o : Operands) :
    valueText m o = textOutOfRange := by rw [valueText, h]

theorem valueText_of_open {m : Measurement} (h : m.kind = .open_) (o : Operands) :
    valueText m o = textOpen := by rw [valueText, h]

theorem valueText_of_highRes {m : Measurement} (h : m.kind = .highRes) (o : Operands) :
    valueText m o = textHighRes := by rw [valueText, h]

theorem valueText_of_noDefault {m : Measurement} (h : m.kind = .noDefault) (o : Operands) :
    valueText m o = [] := by rw [valueText, h]

/-- A NUMERIC string has 6 characters, and one more with the sign (R146). -/
theorem valueText_length_of_numeric {m : Measurement} (h : m.kind = .numeric) (o : Operands) :
    (valueText m o).length = 6 + m.neg.toNat := by
  rw [valueText_of_numeric h, numericText_length _ _ _ (digitChars_length o)]

/-- "high resistance" alone has the longest length (R144). -/
theorem highRes_iff_valueText_length (m : Measurement) (o : Operands) :
    m.kind = .highRes ↔ (valueText m o).length = 15 := by
  cases h : m.kind with
  | numeric => rw [valueText_length_of_numeric h]; cases m.neg <;> decide
  | error => rw [valueText_of_error h]; decide
  | outOfRange => rw [valueText_of_outOfRange h]; decide
  | open_ => rw [valueText_of_open h]; decide
  | highRes => rw [valueText_of_highRes h]; decide
  | noDefault => rw [valueText_of_noDefault h]; decide

/-- No literal string begins with a minus (R142, R143). -/
theorem valueText_first_ne_minus {m : Measurement} (hk : m.kind ≠ .numeric) (o : Operands) :
    (valueText m o).getD 0 0 ≠ charMinus := by
  cases h : m.kind with
  | numeric => exact absurd h hk
  | error => rw [valueText_of_error h]; decide
  | outOfRange => rw [valueText_of_outOfRange h]; decide
  | open_ => rw [valueText_of_open h]; decide
  | highRes => rw [valueText_of_highRes h]; decide
  | noDefault => rw [valueText_of_noDefault h]; decide

/-- A NUMERIC string of digits without a point has the one point that assembly puts in (R146). -/
theorem count_point_numericText (neg : Bool) (p : PrintPattern) {cs : List Byte} (h : charPoint ∉ cs) :
    (numericText neg p cs).count charPoint = 1 := by
  have htake : (cs.take p.val).count charPoint = 0 := List.count_eq_zero.2 fun hm => h (List.mem_of_mem_take hm)
  have hdrop : (cs.drop p.val).count charPoint = 0 := List.count_eq_zero.2 fun hm => h (List.mem_of_mem_drop hm)
  have hsign : (if neg then [charMinus] else []).count charPoint = 0 := by cases neg <;> decide
  simp only [numericText, List.count_append, htake, hdrop, hsign, List.count_singleton_self]

/-- A NUMERIC string of digits without a minus begins with one exactly when the sign was put in (R146). -/
theorem numericText_first_eq_minus (neg : Bool) (p : PrintPattern) {cs : List Byte} (h : charMinus ∉ cs) :
    (numericText neg p cs).getD 0 0 = charMinus ↔ neg = true := by
  cases neg with
  | true => exact iff_of_true rfl rfl
  | false =>
    refine iff_of_false (fun hfirst => ?_) Bool.false_ne_true
    have hlen : 0 < (numericText false p cs).length := by simp [numericText]
    have hmem : charMinus ∈ numericText false p cs := by
      rw [← hfirst, List.getD_eq_getElem _ _ hlen]
      exact List.getElem_mem hlen
    have hcases : charMinus ∈ cs.take p.val ∨ charMinus = charPoint ∨ charMinus ∈ cs.drop p.val := by
      simpa [numericText, or_assoc] using hmem
    obtain hm | hm | hm := hcases
    · exact h (List.mem_of_mem_take hm)
    · exact absurd hm (by decide)
    · exact h (List.mem_of_mem_drop hm)

/-- A character outside '0'..'9' is not among five decimal digits. -/
theorem not_mem_digitChars {o : Operands} (h : anyNotDigit o = false) {b : Byte} (hb : b.toNat < 0x30) :
    b ∉ digitChars o := fun hm => by
  have := (anyNotDigit_eq_false o).1 h b hm
  omega

/-- "kohm" and "mohm" alone have the longest length (R145). -/
theorem unitText_length_eq_four (u : UnitCode) : (unitText u).length = 4 ↔ u = .uKohm ∨ u = .uMohm := by
  cases u <;> decide

/-! ## The ports after a measurement -/

/-- The text port read up to its length is the value string (R144). -/
theorem textChars_valueText (m : Measurement) (o : Operands) :
    textChars (packBytes 128 (valueText m o)) (valueText m o).length = valueText m o :=
  textChars_packBytes _ ((valueText_length_le m o).trans (by decide))

/-- After a reset an instruction whose result is a measurement loads it (R30 case 2). -/
theorem exec_of_meas {s : State} (hs : s.resetSeen = true) {i : Instr} {m : Measurement} (hr : resultOf i = .meas m) :
    exec i s = .next (s.setOut ((s.out.loadType (opcodeByte i)).loadMeas m i.operands)) := by
  rw [exec_eq_accept, hr, accept_meas hs]

/-- After a reset an instruction of a type loads a measurement that its type built (R30 case 2, R160). -/
theorem exec_loads_builtBy {s : State} (hs : s.resetSeen = true) {i : Instr} {t : MsgType} (hi : i.msgType = some t) :
    ∃ m, BuiltBy t i.operands m ∧
      exec i s = .next (s.setOut ((s.out.loadType (opcodeByte i)).loadMeas m i.operands)) := by
  obtain ⟨t', m, ht', -, hr, hm⟩ | ⟨b, o, rfl, -⟩ := resultOf_cases i
  · obtain rfl : t' = t := Option.some.inj (ht'.symm.trans hi)
    exact ⟨m, hm, exec_of_meas hs hr⟩
  · cases hi

/-- The result of a frame of a type without a sign is that of its operands with the sign byte erased (R127). -/
theorem decodeCore_eq_eraseSign {f : Frame} {t : MsgType} (ht : (decodeFrame f).msgType = some t)
    (hu : negVal t = none) :
    decodeCore f = resultOf (instrOf (frameByte f 6) (frameOperands f).eraseSign (some t)) := by
  obtain ⟨-, -, hclass⟩ := decodeFrame_spec f
  rw [resultOf_instrOf_eraseSign hu, ← ht, hclass]
  rfl

theorem exec_decodeFrame_eq_eraseSign (f : Frame) (s : State) :
    exec (decodeFrame f) s =
      .next (accept (frameByte f 6) (frameOperands f).eraseSign (decodeCore f) s) := by
  rw [exec_eq_accept, opcodeByte_decodeFrame, operands_decodeFrame, accept_eraseSign]
  rfl

/-- A selector byte 0x32 reads the entry of DCV that the source fixes (R131). -/
theorem ranged_dcv_two {o : Operands} (h : o.f5 = selByte 2) : ranged .dcv o = num .dcv 2 .uV o :=
  ranged_of_some ((range_of_selByte .dcv o 2 h).trans (meetsR131_admitted Config.rangeTable).dcv_two)

end Sys2Proof.Machine

namespace Sys2Proof.Proofs

open Sys2Proof.Machine Sys2Proof.Safety

/-- Settles O34: `num` alone takes the sign decoder's flag, and no string of another kind begins with a minus. -/
theorem signFlagOnlyOnNegativeNumericValues : Obligations.SignFlagOnlyOnNegativeNumericValues := by
  intro i s ty hi
  refine ⟨negFlag_eq_true ty i.operands, fun hs => ?_⟩
  obtain ⟨m, hm, hexec⟩ := exec_loads_builtBy hs hi
  refine ⟨_, hexec, ?flag, fun hk => ?first⟩
  case flag => exact (builtBy_neg hm).trans (and_congr_right fun _ => negFlag_eq_true ty i.operands)
  case first =>
    have hkind : m.kind ≠ .numeric := fun h => hk (congrArg kindBits h)
    rw [setOut_out, loadMeas_vtext, busByte_packBytes _ _ _ (by decide)]
    exact valueText_first_ne_minus hkind i.operands

/-- Settles O35: the result and the update of OUT are those of the operands with the sign byte erased, which the two
frames share. -/
theorem unsignedTypesIgnoreTheSignByte : Obligations.UnsignedTypesIgnoreTheSignByte := by
  intro f g s ty hty hf h
  have hunsigned : negVal ty = none := negVal_eq_none ty hty
  have hsix : frameByte f 6 = frameByte g 6 := h 6 (by decide)
  have hoperands := eraseSign_frameOperands_congr h
  have hg : (decodeFrame g).msgType = some ty := by
    obtain ⟨-, -, hclassf⟩ := decodeFrame_spec f
    obtain ⟨-, -, hclassg⟩ := decodeFrame_spec g
    rw [hclassg, ← hsix, ← hclassf, hf]
  have hcore : decodeCore f = decodeCore g := by
    rw [decodeCore_eq_eraseSign hf hunsigned, decodeCore_eq_eraseSign hg hunsigned, hsix, hoperands]
  have hexecf := exec_decodeFrame_eq_eraseSign f s
  refine ⟨hcore, _, hexecf, ?same, fun hs => ?unsigned⟩
  case same => rw [exec_decodeFrame_eq_eraseSign, hsix, hoperands, hcore]
  case unsigned =>
    obtain ⟨m, hm, hexec⟩ := exec_loads_builtBy hs hf
    rw [Host.Outcome.next.inj (hexecf.symm.trans hexec), setOut_out, loadMeas_neg, ← Bool.not_eq_true, builtBy_neg hm,
      negFlag_of_unsigned hunsigned]
    exact fun ⟨_, hflag⟩ => Bool.false_ne_true hflag

/-- Settles O37: `num` alone carries the digit check, which reads the five digit bytes. -/
theorem digitErrOnlyOnBadNumericDigits : Obligations.DigitErrOnlyOnBadNumericDigits := by
  intro i s ty hs hi
  obtain ⟨m, hm, hexec⟩ := exec_loads_builtBy hs hi
  exact ⟨_, hexec, (builtBy_digitErr hm).trans (and_congr_right fun _ => anyNotDigit_eq_true i.operands)⟩

/-- Settles O38: every measurement carries the lanes of its frame, and a lane plus BASE is its byte. -/
theorem digitPortHoldsTheLanes : Obligations.DigitPortHoldsTheLanes := by
  intro i s ty hs hi
  obtain ⟨m, hm, hexec⟩ := exec_loads_builtBy hs hi
  refine ⟨_, hexec, fun k => ?_⟩
  rw [setOut_out, loadMeas_digits, builtBy_digits hm, digitLane_digitLanes, lane_add_base]
  rfl

/-- Settles O39: a NUMERIC measurement is a `num`, whose string is `numericText`; the frame of V46a reads the entry of
DCV that the source fixes. -/
theorem numericValueStringIsDigitsAroundOnePoint : Obligations.NumericValueStringIsDigitsAroundOnePoint := by
  refine ⟨fun i s ty hs hi => ?numeric, fun s hs => ?badDigit⟩
  case numeric =>
    obtain ⟨m, hm, hexec⟩ := exec_loads_builtBy hs hi
    refine ⟨_, hexec, fun hk => ?_⟩
    obtain ⟨-, p, u, rfl⟩ | ⟨hne, -⟩ := builtBy_kind hm
    · simp only [setOut_out, loadMeas_vlen, loadMeas_vtext, loadMeas_neg, loadMeas_dp, loadMeas_digitErr, num_neg, num_dp,
        num_digitErr, valueText_vlen, textChars_valueText, dpBits_toNat, digitAboveNine_eq]
      refine ⟨valueText_length_of_numeric rfl _, rfl, fun hdigits => ⟨(anyNotDigit_eq_false _).1 hdigits, ?_, ?_⟩⟩
      · exact count_point_numericText _ p (not_mem_digitChars hdigits (by decide))
      · rw [busByte_packBytes _ _ _ (by decide)]
        exact numericText_first_eq_minus _ p (not_mem_digitChars hdigits (by decide))
    · exact absurd hk hne
  case badDigit =>
    refine ⟨_, exec_of_meas hs (congrArg Result.meas (ranged_dcv_two rfl)), ?_, rfl, rfl⟩
    rw [setOut_out, loadMeas_vlen, loadMeas_vtext, valueText_vlen, textChars_valueText]
    decide

/-- Settles O40: both ports pack their strings, whose lengths fit the length fields. -/
theorem textPortsArePackedAndPadded : Obligations.TextPortsArePackedAndPadded := by
  intro i s m hs hr
  refine ⟨_, exec_of_meas hs hr, ?_⟩
  simp only [setOut_out, loadMeas_vlen, loadMeas_vtext, loadMeas_ulen, loadMeas_utext, valueText_vlen, unitText_ulen,
    true_and]
  refine ⟨valueText_length_le m _, highRes_iff_valueText_length m _, fun hk => ?numeric, fun k => ?value,
    unitText_length_le _, unitText_length_eq_four _, fun k => ?unit⟩
  case numeric =>
    rw [valueText_length_of_numeric hk]
    cases m.neg <;> rfl
  case value => exact busByte_packBytes_padded 128 _ k.val (by omega)
  case unit => exact busByte_packBytes_padded 32 _ k.val (by omega)

/-- Settles O45: the table is the admitted one, and every admitted table meets R131. -/
theorem rangeTableMeetsItsConstraints : Obligations.RangeTableMeetsItsConstraints :=
  meetsR131_admitted Config.rangeTable

/-- Settles O6: the two branches of `lane_toNat`. -/
theorem laneWrapsAroundAtEightBits : Obligations.LaneWrapsAroundAtEightBits := by
  intro b
  have hb := b.isLt
  rw [lane_toNat]
  split <;> omega

/-- Settles O7: a borrowed lane is at least 208, so it meets none of the tests. -/
theorem laneTestsAreByteTests : Obligations.LaneTestsAreByteTests := by
  intro b k hk
  have hb := b.isLt
  rw [← BitVec.toNat_inj, ← BitVec.toNat_inj, BitVec.toNat_ofNat, BitVec.toNat_ofNat, lane_toNat]
  split <;> omega

/-- Settles O41: each kind's string, spelled by its ASCII codes. -/
theorem literalStringsAreExact : Obligations.LiteralStringsAreExact := fun _ o =>
  ⟨fun h => (valueText_of_error h o).trans (by decide), fun h => (valueText_of_outOfRange h o).trans (by decide),
    fun h => (valueText_of_open h o).trans (by decide), fun h => (valueText_of_highRes h o).trans (by decide),
    fun h => valueText_of_noDefault h o⟩

end Sys2Proof.Proofs
end

section
/-! PROOFS. The handlers (42_handlers.md R160 to R185). After a reset a measurement loads the state that its handler's
rule gives: one lemma for a value, one for another kind, one for RANGED and one for the sentinel before it. Each type is
then settled by the one its handler is built with. -/

namespace Sys2Proof.Machine

open Sys2Proof.Safety

/-! ## What the statements of every handler share -/

/-- The instruction of a type with the given operands (R80). -/
def instrOfType (t : MsgType) (o : Operands) : Instr := instrOf (typeByte t) o (some t)

/-- The byte of a type selects its instruction, with the frame's own operands (R80). -/
theorem selectedBy_typeByte (t : MsgType) : SelectedBy (typeByte t) (instrOfType t) := by
  intro f hf
  rw [decodeFrame, hf, classify_typeByte, instrOfType]

/-- The instruction of a type is one `accept` of the type's byte and its result. -/
theorem exec_instrOfType (t : MsgType) (o : Operands) (s : State) :
    exec (instrOfType t o) s = .next (accept (typeByte t) o (resultOf (instrOfType t o)) s) := by
  cases t <;> rfl

/-- The sign decoder over bytes: it tests byte 8 for the byte of the type's sign value (R123, R125). -/
theorem negFlag_of_negVal {t : MsgType} {b : Byte} (h : negVal t = some (lane b)) (o : Operands) :
    negFlag t o = (o.f8 == b) := by
  rw [Bool.eq_iff_iff, negFlag, h, beq_iff_eq, beq_iff_eq, Option.some_inj]
  exact ⟨fun hlane => (lane_injective hlane).symm, fun hbyte => by rw [sgn, hbyte]⟩

/-- The table of the machine meets R131, row by row. -/
theorem meetsR131_rangeTable : MeetsR131 rangeTable := meetsR131_admitted Config.rangeTable

/-! ## The state after a measurement, by how it came about -/

section Loads

variable {s : State} (hs : s.resetSeen = true) {t : MsgType} {o : Operands}
include hs

/-- An instruction that answers NUM loads the state of that value (R160). -/
theorem exec_of_num {p : PrintPattern} {u : UnitCode} (hr : resultOf (instrOfType t o) = .meas (num t p u o))
    {neg : Bool} (hneg : negFlag t o = neg) :
    exec (instrOfType t o) s = .next (numericState s (typecode (typeByte t)) (typeByte t) o neg p u) := by
  rw [exec_instrOfType, hr, accept_num hs, hneg]

/-- An instruction that answers ONLY loads the state of that kind (R160). -/
theorem exec_of_only {k : Kind} {u : UnitCode} (hr : resultOf (instrOfType t o) = .meas (only k u o)) :
    exec (instrOfType t o) s =
      .next (otherState s (typecode (typeByte t)) (typeByte t) o (kindBits k) u (valueText (only k u o) o)) := by
  rw [exec_instrOfType, hr, accept_only hs]

/-- An instruction that answers NUM where RANGE maps its selector and ONLY elsewhere reads the table (R130, R160). -/
theorem readsTable_of_rangedOr {k : Kind} {u : UnitCode}
    (hr : resultOf (instrOfType t o) = .meas (rangedOr (only k u o) t o)) {neg : Bool} (hneg : negFlag t o = neg) :
    ReadsTable (instrOfType t o) t s (typecode (typeByte t)) (typeByte t) o neg
      (otherState s (typecode (typeByte t)) (typeByte t) o (kindBits k) u (valueText (only k u o) o)) := by
  refine ⟨fun n hn => ?inside, fun hout => ?outside⟩
  case inside =>
    rw [rangedOr, range_of_selByte t o n hn] at hr
    cases hentry : rangeTable t n with
    | none => exact exec_of_only hs (by rw [hr, hentry])
    | some e => exact exec_of_num hs (by rw [hr, hentry]) hneg
  case outside =>
    rw [rangedOr, range_of_outside t o hout] at hr
    exact exec_of_only hs hr

/-- An instruction that answers RANGED reads the table, and is an error where it is unmapped (R160). -/
theorem readsTable_of_ranged (hr : resultOf (instrOfType t o) = .meas (ranged t o)) {neg : Bool}
    (hneg : negFlag t o = neg) :
    ReadsTable (instrOfType t o) t s (typecode (typeByte t)) (typeByte t) o neg
      (errorState s (typecode (typeByte t)) (typeByte t) o) :=
  readsTable_of_rangedOr hs hr hneg

/-- An unsigned instruction with a sentinel answers it before it looks at the selector, and RANGED otherwise (R124). -/
theorem exec_of_sentinelFirst {k : Kind} {u : UnitCode}
    (hr : resultOf (instrOfType t o) = .meas (if sent o then only k u o else ranged t o))
    (hunsigned : negVal t = none) :
    (o.f0 = 0x3A → exec (instrOfType t o) s =
      .next (otherState s (typecode (typeByte t)) (typeByte t) o (kindBits k) u (valueText (only k u o) o))) ∧
    (o.f0 ≠ 0x3A → ReadsTable (instrOfType t o) t s (typecode (typeByte t)) (typeByte t) o false
      (errorState s (typecode (typeByte t)) (typeByte t) o)) := by
  refine ⟨fun hsent => exec_of_only hs ?sentinel, fun hsent => readsTable_of_ranged hs ?value ?sign⟩
  case sentinel => rw [hr, if_pos (sent_of_eq hsent)]
  case value => rw [hr, if_neg (ne_true_of_eq_false (sent_of_ne hsent))]
  case sign => exact negFlag_of_unsigned hunsigned o

end Loads

/-! ## BEEP, case by case -/

theorem handleBeep_of_sentinel {o : Operands} (h : o.f0 = 0x3A) : handleBeep o = only .open_ .uNone o := by
  rw [handleBeep, if_pos (sent_of_eq h)]

theorem handleBeep_of_ne_sentinel {o : Operands} (h : o.f0 ≠ 0x3A) :
    handleBeep o = if o.f5 = 0x30 then num .beep Config.beepPattern .uOhm o else only .highRes .uNone o := by
  simp only [handleBeep, sent_of_ne h, Bool.false_eq_true, if_false, sel_eq_zero]

/-! ## FREQ -/

/-- Every selector of FREQ has an entry, in the hertz family (R131). -/
theorem rangeTable_freq (k : Selector) :
    ∃ p u, rangeTable .freq k = some (p, u) ∧ (u = .uHz ∨ u = .uKHz ∨ u = .uMHz) := by
  obtain hnone | ⟨p, u, hu, hentry⟩ := meetsR131_rangeTable.freq_units k
  · have hmapped := meetsR131_rangeTable.freq_mapped k
    rw [hnone] at hmapped
    cases hmapped
  · exact ⟨p, u, hentry, by simpa using hu⟩

/-- A FREQ measurement is NUMERIC or NODEFAULT, never an error (R183). -/
theorem handleFreq_kind (o : Operands) : (handleFreq o).kind = .numeric ∨ (handleFreq o).kind = .noDefault := by
  obtain ⟨p, u, -, hnum⟩ | ⟨-, honly⟩ := rangedOr_cases (only .noDefault .uNone o) .freq o
  · exact .inl (congrArg Measurement.kind hnum)
  · exact .inr (congrArg Measurement.kind honly)

end Sys2Proof.Machine

namespace Sys2Proof.Proofs

open Sys2Proof.Machine Sys2Proof.Safety

/-- Settles O19: the handler is RANGED, its sign value 5 is byte 0x35, and R131 fixes the mapped set and entry 2. -/
theorem dcvFramesReadTheRangeTable : Obligations.DcvFramesReadTheRangeTable := by
  refine ⟨selectedBy_typeByte .dcv, fun o s hs => ?reads, fun k => ?mapped, meetsR131_rangeTable.dcv_two⟩
  case reads => exact readsTable_of_ranged (t := .dcv) hs rfl (negFlag_of_negVal (b := 0x35) rfl o)
  case mapped => rw [meetsR131_rangeTable.dcv_mapped]; revert k; decide

/-- Settles O20: the handler is RANGED of a type without a sign value. -/
theorem acvFramesNeverShowASign : Obligations.AcvFramesNeverShowASign :=
  ⟨selectedBy_typeByte .acv,
    fun o _ hs => readsTable_of_ranged (t := .acv) hs rfl (negFlag_of_unsigned rfl o),
    meetsR131_rangeTable.acv_units⟩

/-- Settles O21: the handler is RANGED, and its sign value 4 is byte 0x34. -/
theorem mvFramesReadTheRangeTable : Obligations.MvFramesReadTheRangeTable :=
  ⟨selectedBy_typeByte .mv,
    fun o _ hs => readsTable_of_ranged (t := .mv) hs rfl (negFlag_of_negVal (b := 0x34) rfl o),
    meetsR131_rangeTable.mv_units⟩

/-- Settles O22: the three handlers are RANGED, and their sign value 4 is byte 0x34. -/
theorem currentFramesReadTheRangeTable : Obligations.CurrentFramesReadTheRangeTable :=
  ⟨selectedBy_typeByte .ua, selectedBy_typeByte .ma, selectedBy_typeByte .amp,
    fun o _ hs =>
      ⟨readsTable_of_ranged (t := .ua) hs rfl (negFlag_of_negVal (b := 0x34) rfl o),
        readsTable_of_ranged (t := .ma) hs rfl (negFlag_of_negVal (b := 0x34) rfl o),
        readsTable_of_ranged (t := .amp) hs rfl (negFlag_of_negVal (b := 0x34) rfl o)⟩,
    meetsR131_rangeTable.ua_units, meetsR131_rangeTable.ma_units, meetsR131_rangeTable.amp_units⟩

/-- Settles O23: the sentinel in ohms before RANGED, and R131 fixes the mapped set and entry 1. -/
theorem ohmFramesTestTheSentinelFirst : Obligations.OhmFramesTestTheSentinelFirst := by
  refine ⟨selectedBy_typeByte .ohm, fun _ _ hs => ?answers, fun k => ?mapped, meetsR131_rangeTable.ohm_one⟩
  case answers => exact exec_of_sentinelFirst (t := .ohm) hs rfl rfl
  case mapped => rw [meetsR131_rangeTable.ohm_mapped]; revert k; decide

/-- Settles O24: the sentinel without a unit before RANGED, and R131 gives the gap and the family. -/
theorem capFramesTestTheSentinelFirst : Obligations.CapFramesTestTheSentinelFirst :=
  ⟨selectedBy_typeByte .cap,
    fun _ _ hs => exec_of_sentinelFirst (t := .cap) hs rfl rfl,
    meetsR131_rangeTable.cap_gap, meetsR131_rangeTable.cap_units⟩

/-- Settles O25: each temperature type answers the sentinel in its own degree before RANGED. -/
theorem temperatureFramesTestTheSentinelFirst : Obligations.TemperatureFramesTestTheSentinelFirst := by
  refine ⟨selectedBy_typeByte .tempc, selectedBy_typeByte .tempf, fun o s hs => ?answers,
    meetsR131_rangeTable.tempc_units, meetsR131_rangeTable.tempf_units⟩
  obtain ⟨hsentC, hreadC⟩ := exec_of_sentinelFirst (t := .tempc) (o := o) hs rfl rfl
  obtain ⟨hsentF, hreadF⟩ := exec_of_sentinelFirst (t := .tempf) (o := o) hs rfl rfl
  exact ⟨fun h => ⟨hsentC h, hsentF h⟩, fun h => ⟨hreadC h, hreadF h⟩⟩

/-- Settles O26: the three branches of the handler; the value is unsigned, for BEEP has no sign value. -/
theorem beepFramesAnswerInOrder : Obligations.BeepFramesAnswerInOrder := by
  refine ⟨selectedBy_typeByte .beep, fun o _ hs => ⟨fun hsent => ?openCircuit, fun hsent hsel => ?value,
    fun hsent hsel => ?highResistance⟩⟩
  case openCircuit => exact exec_of_only (t := .beep) hs (congrArg Result.meas (handleBeep_of_sentinel hsent))
  case value =>
    exact exec_of_num (t := .beep) hs (congrArg Result.meas ((handleBeep_of_ne_sentinel hsent).trans (if_pos hsel)))
      (negFlag_of_unsigned rfl o)
  case highResistance =>
    exact exec_of_only (t := .beep) hs (congrArg Result.meas ((handleBeep_of_ne_sentinel hsent).trans (if_neg hsel)))

/-- Settles O27: the sentinel as an open circuit before RANGED. -/
theorem diodeFramesTestTheSentinelFirst : Obligations.DiodeFramesTestTheSentinelFirst :=
  ⟨selectedBy_typeByte .diode, fun _ _ hs => exec_of_sentinelFirst (t := .diode) hs rfl rfl⟩

/-- Settles O28: the handler reads the table with NODEFAULT where the others have an error, and R131 maps every
selector. -/
theorem freqFramesHaveNoError : Obligations.FreqFramesHaveNoError := by
  refine ⟨selectedBy_typeByte .freq, fun o s hs => ?reads, rangeTable_freq,
    fun o _ hs => ⟨_, exec_of_meas hs (i := .freq o) rfl, ?kind⟩⟩
  case reads => exact readsTable_of_rangedOr (t := .freq) hs rfl (negFlag_of_unsigned rfl o)
  case kind => exact (handleFreq_kind o).imp (congrArg kindBits) (congrArg kindBits)

end Sys2Proof.Proofs
end

section
/-! PROOFS. Exceptions (60_exceptions.md R230 to R238). No edge stops; the strobes are those of the frame that the edge
accepts; and the kind of a measurement is the first of R233's conditions that applies, said once for all thirteen
handlers. -/

namespace Sys2Proof.Machine

open Sys2Proof.Safety

/-! ## No trap -/

/-- Any number of edges completes, and uses up as many of the listed ones (R235, R265). -/
theorem run_completes (k : Nat) (s : State) :
    ∃ t : State, Sys2Proof.core.run k s = .next t ∧ t.inputs = s.inputs.drop k := by
  induction k generalizing s with
  | zero => exact ⟨s, rfl, rfl⟩
  | succ k ih =>
    obtain ⟨s', hstep, hinputs⟩ := step_completes s
    obtain ⟨t, hrun, hdrop⟩ := ih s'
    exact ⟨t, (run_succ k s s' hstep).trans hrun, by rw [hdrop, hinputs, List.drop_tail]⟩

/-! ## The strobes -/

/-- An edge never raises both strobes, for the one frame it accepts is measured or it is not (R234). -/
theorem afterEdge_not_both (r : Out) (e : EdgeInput) :
    ¬ ((r.afterEdge e).valid = true ∧ (r.afterEdge e).diag = true) := by
  rw [afterEdge_valid, afterEdge_diag]
  rintro ⟨⟨f, hf, hmeasured⟩, g, hg, hunmeasured⟩
  obtain rfl : f = g := Option.some.inj (hf.symm.trans hg)
  rw [hmeasured] at hunmeasured
  cases hunmeasured

/-- An edge raises a strobe exactly when it accepts a frame (R30). -/
theorem afterEdge_strobe_iff (r : Out) (e : EdgeInput) :
    (r.afterEdge e).valid = true ∨ (r.afterEdge e).diag = true ↔ e.rst = false ∧ e.inValid = true := by
  cases hr : e.rst with
  | true => simp [afterEdge_of_reset hr, Out.reset]
  | false =>
    cases hv : e.inValid with
    | true => simp [afterEdge_of_frame hr hv]
    | false => simp [afterEdge_of_idle hr hv]

/-! ## What the handlers of R231 answer -/

/-- An instruction of a type is the one its operands make (R80). -/
theorem eq_instrOfType {i : Instr} {t : MsgType} (h : i.msgType = some t) : i = instrOfType t i.operands := by
  cases i with
  | unknown f6 o => cases h
  | _ => cases h; rfl

/-- Six types answer RANGED (R161, R163, R165, R173, R175, R177). -/
theorem resultOf_of_ranged {t : MsgType} (ht : t ∈ [MsgType.dcv, .acv, .mv, .ua, .ma, .amp]) (o : Operands) :
    resultOf (instrOfType t o) = .meas (ranged t o) := by
  cases t with
  | dcv | acv | mv | ua | ma | amp => rfl
  | _ => exact absurd ht (by decide)

/-- Five types test the sentinel before RANGED, and DIODE alone of them has it mean an open circuit (R167, R169, R171,
R181, R185). -/
theorem resultOf_of_sentinel {t : MsgType} (ht : t ∈ [MsgType.ohm, .cap, .tempc, .diode, .tempf]) (o : Operands) :
    ∃ u, resultOf (instrOfType t o) =
      .meas (if sent o then only (if t = .diode then .open_ else .outOfRange) u o else ranged t o) := by
  cases t with
  | ohm | cap | tempc | diode | tempf => exact ⟨_, rfl⟩
  | _ => exact absurd ht (by decide)

/-- After a reset an UNMAPPED selector gives ("error", "") where the handler answers RANGED (R160, R231). -/
theorem exec_of_ranged_unmapped {s : State} (hs : s.resetSeen = true) {i : Instr} {t : MsgType}
    (hi : i.msgType = some t) (hunmapped : range t i.operands = none)
    (hr : resultOf (instrOfType t i.operands) = .meas (ranged t i.operands)) :
    exec i s = .next (errorState s (typecode (typeByte t)) (typeByte t) i.operands) := by
  rw [ranged_of_none hunmapped] at hr
  conv_lhs => rw [eq_instrOfType hi]
  exact exec_of_only hs hr

/-! ## The first condition that applies -/

/-- The kind code of the first of R233's conditions that a frame of a known type meets. -/
def firstCondition (t : MsgType) (o : Operands) : BitVec 3 :=
  if t ∈ [MsgType.ohm, .cap, .tempc, .tempf] ∧ o.f0 = 0x3A then 2
  else if t ∈ [MsgType.beep, .diode] ∧ o.f0 = 0x3A then 3
  else if t = .beep ∧ o.f5 ≠ 0x30 then 4
  else if t ≠ .beep ∧ range t o = none then (if t = .freq then 5 else 1)
  else 0

/-- The kind of a table read: that of `m` where RANGE is UNMAPPED, otherwise NUMERIC (R160). -/
theorem kindBits_rangedOr (m : Measurement) (t : MsgType) (o : Operands) :
    kindBits (rangedOr m t o).kind = if range t o = none then kindBits m.kind else 0 := by
  obtain ⟨p, u, hrange, hnum⟩ | ⟨hrange, hm⟩ := rangedOr_cases m t o
  · rw [hnum, hrange]; rfl
  · rw [hm, if_pos hrange]

/-- The kind of RANGED (R160). -/
theorem kindBits_ranged (t : MsgType) (o : Operands) :
    kindBits (ranged t o).kind = if range t o = none then 1 else 0 := kindBits_rangedOr _ t o

/-- The kind of a type with the sentinel: that of the sentinel, else of RANGED (R124, R160). -/
theorem kindBits_of_sentinel {t : MsgType} (ht : t ∈ [MsgType.ohm, .cap, .tempc, .diode, .tempf]) {o : Operands}
    {m : Measurement} (hr : resultOf (instrOfType t o) = .meas m) :
    kindBits m.kind =
      if o.f0 = 0x3A then kindBits (if t = .diode then .open_ else .outOfRange)
      else if range t o = none then 1 else 0 := by
  obtain ⟨u, hu⟩ := resultOf_of_sentinel ht o
  rw [← Result.meas.inj (hu.symm.trans hr)]
  by_cases hsent : o.f0 = 0x3A
  · rw [if_pos (sent_of_eq hsent), if_pos hsent, only_kind]
  · rw [if_neg (ne_true_of_eq_false (sent_of_ne hsent)), if_neg hsent, kindBits_ranged]

/-- The kind of a BEEP measurement: open, else a value on selector 0, else high resistance (R179). -/
theorem kindBits_handleBeep (o : Operands) :
    kindBits (handleBeep o).kind = if o.f0 = 0x3A then 3 else if o.f5 = 0x30 then 0 else 4 := by
  by_cases hsent : o.f0 = 0x3A
  · rw [handleBeep_of_sentinel hsent, if_pos hsent]; rfl
  · rw [handleBeep_of_ne_sentinel hsent, if_neg hsent]
    split <;> rfl

/-- Below the sentinel the last three conditions of R233 are left. -/
theorem firstCondition_of_ne_sentinel {o : Operands} (h : o.f0 ≠ 0x3A) (t : MsgType) :
    firstCondition t o =
      if t = .beep ∧ o.f5 ≠ 0x30 then 4
      else if t ≠ .beep ∧ range t o = none then (if t = .freq then 5 else 1)
      else 0 := by
  simp only [firstCondition, h, and_false, if_false]

/-- Every handler answers the kind of the first condition that applies (R233). -/
theorem kindBits_of_resultOf {t : MsgType} {o : Operands} {m : Measurement}
    (hr : resultOf (instrOfType t o) = .meas m) : kindBits m.kind = firstCondition t o := by
  cases t with
  | dcv | acv | mv | ua | ma | amp =>
    obtain rfl : ranged _ o = m := Result.meas.inj hr
    rw [kindBits_ranged]
    simp [firstCondition]
  | ohm | cap | tempc | diode | tempf =>
    rw [kindBits_of_sentinel (by decide) hr]
    by_cases hsent : o.f0 = 0x3A
    · simp [firstCondition, hsent, kindBits]
    · rw [if_neg hsent, firstCondition_of_ne_sentinel hsent]
      simp
  | beep =>
    rw [← Result.meas.inj hr, kindBits_handleBeep]
    by_cases hsent : o.f0 = 0x3A
    · simp [firstCondition, hsent]
    · rw [if_neg hsent, firstCondition_of_ne_sentinel hsent]
      simp
  | freq =>
    rw [← Result.meas.inj hr, handleFreq, kindBits_rangedOr]
    simp [firstCondition, kindBits]

/-- Where the kind is NUMERIC the sign and digit flags are those of the frame (R125, R135, R160). -/
theorem builtBy_flags_of_numeric {t : MsgType} {o : Operands} {m : Measurement} (h : BuiltBy t o m)
    (hk : kindBits m.kind = 0) : m.neg = negFlag t o ∧ m.digitErr = anyNotDigit o := by
  obtain ⟨-, p, u, rfl⟩ | ⟨hne, -⟩ := builtBy_kind h
  · exact ⟨rfl, digitAboveNine_eq o⟩
  · exact absurd hk hne

end Sys2Proof.Machine

namespace Sys2Proof.Proofs

open Sys2Proof.Machine Sys2Proof.Safety

/-- Settles O18, by induction on the number of edges: each completes and uses up one of the list. -/
theorem noNumberOfEdgesStops : Obligations.NoNumberOfEdgesStops := run_completes

/-- Settles O32: a known type's handler answers the kind of the first condition, and an unknown type the diagnostic. -/
theorem kindIsTheFirstConditionThatApplies : Obligations.KindIsTheFirstConditionThatApplies := by
  intro i s hs _
  obtain ⟨t, m, hi, -, hr, hm⟩ | ⟨b, o, rfl, -⟩ := resultOf_cases i
  · refine ⟨_, exec_of_meas hs hr, fun hnone => ?_, fun ty hty => ?_⟩
    · rw [hi] at hnone; cases hnone
    · obtain rfl : t = ty := Option.some.inj (hi.symm.trans hty)
      rw [eq_instrOfType hi] at hr
      exact ⟨rfl, rfl, kindBits_of_resultOf hr, builtBy_flags_of_numeric hm⟩
  · exact ⟨_, exec_unknown hs b o, fun _ => ⟨rfl, rfl, rfl⟩, fun ty hty => by cases hty⟩

/-- Settles O33: below the sentinel eleven handlers are RANGED, whose ONLY is the error; FREQ has NODEFAULT there, and
BEEP consults no table. -/
theorem unmappedSelectorGivesError : Obligations.UnmappedSelectorGivesError := by
  intro i s hs
  refine ⟨fun ty hty hi hunmapped => ?ranged, fun ty hty hi hunmapped hsent => ?belowSentinel,
    fun hi hunmapped => ?freq, fun hi => ?beep⟩
  case ranged => exact exec_of_ranged_unmapped hs hi hunmapped (resultOf_of_ranged hty _)
  case belowSentinel =>
    obtain ⟨u, hr⟩ := resultOf_of_sentinel hty i.operands
    rw [if_neg (ne_true_of_eq_false (sent_of_ne hsent))] at hr
    exact exec_of_ranged_unmapped hs hi hunmapped hr
  case freq =>
    have hr : handleFreq i.operands = only .noDefault .uNone i.operands := by rw [handleFreq, rangedOr, hunmapped]
    conv_lhs => rw [eq_instrOfType hi]
    exact exec_of_only (t := .freq) hs (congrArg Result.meas hr)
  case beep =>
    obtain ⟨o, rfl⟩ : ∃ o, i = .beep o := ⟨_, eq_instrOfType hi⟩
    refine ⟨_, exec_of_meas hs rfl, ?_⟩
    rw [setOut_out, loadMeas_kind, kindBits_handleBeep]
    split_ifs <;> decide

/-- Settles O49: after such an edge OUT is `Out.afterEdge`, whose strobes are those of the frame the edge accepts. -/
theorem strobesAreNeverBothOne : Obligations.StrobesAreNeverBothOne := fun s hw hs =>
  ⟨s.afterEdge, step_of_wellDriven hw hs, afterEdge_not_both _ _, afterEdge_strobe_iff _ _⟩

end Sys2Proof.Proofs
end

section
/-! PROOFS. Edges before the first reset, reset edges, and edges that sample a changing frame (70_reset_and_hazards.md
R260, R261, R266). -/

namespace Sys2Proof.Machine

/-- An edge is unstable exactly when it accepts a frame that does not keep its setup and hold (R266). -/
theorem edgeCase_eq_unstable (e : EdgeInput) :
    edgeCase e = .unstable ↔ e.rst = false ∧ e.inValid = true ∧ e.frameStable = false := by
  cases hr : e.rst <;> cases hv : e.inValid <;> cases hs : e.frameStable <;> simp [edgeCase, hr, hv, hs]

/-- A reset edge leaves `State.reset`, but for the edges still to come and the count of draws (R260). -/
theorem step_of_reset {s : State} (h : s.ports.rst = true) :
    step s = .next { State.reset with inputs := s.inputs.tail, draws := s.draws } := by
  simp only [step, (edgeCase_eq_reset _).2 h]
  rfl

/-- An edge that samples a changing frame leaves a free value in OUT, whether or not a reset has come (R266). -/
theorem step_of_unstable {s : State} (h : edgeCase s.ports = .unstable) : step s = .next s.dropPorts.drawOut := by
  simp only [step, h]
  rfl

/-! ## The run up to the first reset -/

/-- The machine `k` edges after power-on when none of them was a reset edge, with the edges `es` to come: OUT is its
last free value, and each edge has drawn one (log 4). -/
def State.unreset (k : Nat) (es : List EdgeInput) : State :=
  { out := Config.freeOut k, inputs := es, draws := k + 1, resetSeen := false }

theorem powerOn_eq_unreset (es : List EdgeInput) : State.powerOn es = State.unreset 0 es := rfl

/-- An edge without `rst` draws once more, whatever else it presents (R261). -/
theorem step_unreset {e : EdgeInput} (he : e.rst = false) (k : Nat) (es : List EdgeInput) :
    step (State.unreset k (e :: es)) = .next (State.unreset (k + 1) es) :=
  step_of_unseen rfl he

/-- From power-on a history without a reset edge draws once for each of its edges (R261). -/
theorem run_powerOn_of_no_reset (h es : List EdgeInput) (hr : ∀ e ∈ h, e.rst = false) :
    Sys2Proof.core.run h.length (State.powerOn (h ++ es)) = .next (State.unreset h.length es) := by
  induction h using List.reverseRecOn generalizing es with
  | nil => exact congrArg Host.Outcome.next (powerOn_eq_unreset es)
  | append_singleton h e ih =>
    have hrun := ih (e :: es) fun e' he' => hr e' (by simp [he'])
    rw [List.length_append, List.append_assoc]
    exact (Safety.run_succ_of_run hrun).trans (step_unreset (hr e (by simp)) h.length es)

end Sys2Proof.Machine

namespace Sys2Proof.Proofs

open Sys2Proof.Machine Sys2Proof.Safety

/-- Settles O13, by induction along the edges before the first reset; the reset edge then forgets the OUT they left. -/
theorem untilTheFirstResetOutIsAFreeValue : Obligations.UntilTheFirstResetOutIsAFreeValue := fun h es hr =>
  ⟨run_powerOn_of_no_reset h es hr, fun e he =>
    (run_succ_of_run (run_powerOn_of_no_reset h (e :: es) hr)).trans
      (step_of_reset (s := State.unreset h.length (e :: es)) he)⟩

/-- Settles O10: R30 tests `rst` before all else, and a reset edge leaves R33's values. -/
theorem resetEdgeGivesResetValues : Obligations.ResetEdgeGivesResetValues := by
  intro s e es hin he
  rw [step_of_reset (by rwa [ports_of_inputs hin]), hin]
  rfl

/-- Settles O11: what a reset edge leaves does not depend on the OUT before it. -/
theorem firstResetForgetsPowerOn : Obligations.FirstResetForgetsPowerOn := fun e es he =>
  ⟨step_of_reset (s := State.powerOn (e :: es)) he, fun r n b =>
    step_of_reset (s := { out := r, inputs := e :: es, draws := n, resetSeen := b }) he⟩

/-- Settles O12: every instruction is one `accept`, which before the first reset draws whatever its result. -/
theorem beforeTheFirstResetAFrameLeavesAFreeOut : Obligations.BeforeTheFirstResetAFrameLeavesAFreeOut := by
  intro i s hs
  rw [exec_eq_accept, accept_of_unseen hs]
  rfl

/-- Settles O16: such an edge is the unstable one, which draws before and after the first reset alike. -/
theorem unstableFrameLoadsAFreeValue : Obligations.UnstableFrameLoadsAFreeValue := by
  intro s e es hin hr hv hs
  have hcase : edgeCase s.ports = .unstable := by
    rw [ports_of_inputs hin]
    exact (edgeCase_eq_unstable e).2 ⟨hr, hv, hs⟩
  rw [step_of_unstable hcase, dropPorts_of_inputs hin]
  rfl

end Sys2Proof.Proofs
end

section
/-! PROOFS. The source's worked examples (95_test_vectors.md E1 to E3): each is one edge that runs the frame's handler on
the state after reset, and the handler statements say what that leaves. -/

namespace Sys2Proof.Proofs

open Sys2Proof.Machine Sys2Proof.Safety

/-- The first edge after reset runs the instruction that byte 6 of the presented frame selects (R30, R101). -/
theorem step_reset_of_selectedBy {f6 : Byte} {mk : Operands → Instr} (hsel : SelectedBy f6 mk) {f : Frame}
    (hf : frameByte f 6 = f6) :
    step { State.reset with inputs := [presentFrame f] } = exec (mk (frameOperands f)) State.reset := by
  rw [stepRunsTheDecodedFrame _ (presentFrame f) [] rfl rfl rfl rfl, ← hsel f hf]
  rfl

/-- Settles O51: E1 and E2 read the two entries of the table that R131 fixes, and E3 is the sentinel of CAP. -/
theorem workedExamplesOfTheSource : Obligations.WorkedExamplesOfTheSource := by
  obtain ⟨dcvSelected, dcvReads, -, dcvEntryTwo⟩ := dcvFramesReadTheRangeTable
  obtain ⟨ohmSelected, ohmAnswers, -, ohmEntryOne⟩ := ohmFramesTestTheSentinelFirst
  obtain ⟨capSelected, capAnswers, -⟩ := capFramesTestTheSentinelFirst
  refine ⟨?minusTwelveVolts, ?fiveOhms, ?capOutOfRange⟩
  case minusTwelveVolts =>
    obtain ⟨readsEntry, -⟩ := dcvReads (frameOperands 0x3030353031323534333231) State.reset rfl
    rw [step_reset_of_selectedBy dcvSelected (by decide), readsEntry 2 (by decide), dcvEntryTwo]
    rfl
  case fiveOhms =>
    obtain ⟨-, readsTable⟩ := ohmAnswers (frameOperands 0x3030303034313030353030) State.reset rfl
    obtain ⟨readsEntry, -⟩ := readsTable (by decide)
    rw [step_reset_of_selectedBy ohmSelected (by decide), readsEntry 1 (by decide), ohmEntryOne]
    rfl
  case capOutOfRange =>
    obtain ⟨answersSentinel, -⟩ := capAnswers (frameOperands 0x303030303530303030303A) State.reset rfl
    rw [step_reset_of_selectedBy capSelected (by decide), answersSentinel (by decide)]
    rfl

end Sys2Proof.Proofs
end
